-- ==== Sys2Proof/Word.lean ====
section
/-!
DEFINITION. The widths of ASFC's registers and ports (00_scope.md R6, R7; 10_state.md R21), as names for bit vectors.
-/

namespace Sys2Proof

/-- One register access: `REG_WIDTH` = 32 bits (00_scope.md R6). -/
abbrev Word := BitVec 32

/-- A 16-bit quantity: a 16-bit sample, the DAC word, the DAC frame (00_scope.md R6). -/
abbrev Half := BitVec 16

/-- One byte of a stride or one byte lane of the bus (20_memory.md R52). -/
abbrev Byte := BitVec 8

/-- The DAC code, 12 bits (00_scope.md R6). -/
abbrev Code := BitVec 12

/-- A byte offset within the 256-byte register window: `bus_addr` (00_scope.md R7). -/
abbrev Offset := BitVec 8

end Sys2Proof
end

