-- ==== Sys2Proof/Syntax.lean ====
section
/-!
DEFINITION. ASFC's ten commands, one constructor per row of the opcode map (30_encoding.md R73), and the two fields of
a command word (30_encoding.md R70).
-/

namespace Sys2Proof

/-- The commands. No command carries an immediate or register field (30_encoding.md R72). -/
inductive Instr where
  /-- `NOP` (43_control.md R160) -/
  | nop
  /-- `CONFIGURE` (40_configure.md R100) -/
  | configure
  /-- `CONVERT` (41_convert.md R126) -/
  | convert
  /-- `PACE` (42_pacer.md R140) -/
  | pace
  /-- `CONVERT_PACE` (42_pacer.md R143) -/
  | convertPace
  /-- `ABORT` (42_pacer.md R146) -/
  | abort
  /-- `CLEAR_ERR` (43_control.md R161) -/
  | clearErr
  /-- `SOFT_RESET` (43_control.md R162) -/
  | softReset
  /-- `CVT16` (41_convert.md R127) -/
  | cvt16
  /-- `CVT8` (41_convert.md R128) -/
  | cvt8
  deriving DecidableEq, Repr

/-- The fields of the one command-word format (30_encoding.md R70). -/
structure CommandWord where
  /-- `OP`, bits [7:0] -/
  op : BitVec 8
  /-- `RSV`, bits [31:8], must be 0 -/
  rsv : BitVec 24
  deriving DecidableEq, Repr

end Sys2Proof
end

