-- ==== Sys2Proof/WellFormed.lean ====
section
/-!
DEFINITION. Which command words are legal, from the words of 30_encoding.md R70 and R75 (not from the opcode map R73,
which the decoder follows). An `Instr` has no operand (30_encoding.md R72), so a decoded instruction has nothing left to
check: the checks are on the command word.
-/

namespace Sys2Proof

/-- `RSV` is 0 (30_encoding.md R70). -/
def CommandWord.reservedClear (c : CommandWord) : Bool := c.rsv == 0#24

/-- `OP` is none of the reserved values 0x08 to 0x0F and 0x12 to 0xFF (30_encoding.md R75). -/
def CommandWord.opcodeDefined (c : CommandWord) : Bool :=
  !(decide (0x08#8 ≤ c.op ∧ c.op ≤ 0x0F#8) || decide (0x12#8 ≤ c.op))

/-- A legal command word: neither kind of illegal word of 30_encoding.md R75. -/
def CommandWord.wellFormed (c : CommandWord) : Bool := c.reservedClear && c.opcodeDefined

end Sys2Proof
end

