-- ==== Sys2Proof/Decode.lean ====
section
/-!
DEFINITION. The decoder of command words (30_encoding.md R70, R73 to R75), total on all 32-bit words and rejecting by
name, and after it the encoder.
-/

namespace Sys2Proof

/-- Why a command word names no command: the two kinds of illegal word of 30_encoding.md R75. -/
inductive DecodeError where
  /-- `RSV` ≠ 0 -/
  | reservedBits
  /-- `OP` is a reserved opcode -/
  | reservedOpcode
  deriving DecidableEq, Repr

/-- The fields of a 32-bit command word: `OP` = bits [7:0], `RSV` = bits [31:8] (30_encoding.md R70). -/
def CommandWord.ofWord (v : Word) : CommandWord :=
  { op := v.extractLsb' 0 8, rsv := v.extractLsb' 8 24 }

/-- The opcode map of 30_encoding.md R73. -/
def decodeOpcode (op : BitVec 8) : Option Instr :=
  if op = 0x00#8 then some .nop
  else if op = 0x01#8 then some .configure
  else if op = 0x02#8 then some .convert
  else if op = 0x03#8 then some .pace
  else if op = 0x04#8 then some .convertPace
  else if op = 0x05#8 then some .abort
  else if op = 0x06#8 then some .clearErr
  else if op = 0x07#8 then some .softReset
  else if op = 0x10#8 then some .cvt16
  else if op = 0x11#8 then some .cvt8
  else none

/-- The command that a word written to `CMD` names: `RSV` is checked first, then `OP` (30_encoding.md R74). -/
def decode (v : Word) : Except DecodeError Instr :=
  if (CommandWord.ofWord v).rsv ≠ 0#24 then .error .reservedBits
  else match decodeOpcode (CommandWord.ofWord v).op with
    | some i => .ok i
    | none => .error .reservedOpcode

/-- The command word of an instruction: the `match` column of 30_encoding.md R73. -/
def encode : Instr → Word
  | .nop => 0x0000_0000#32
  | .configure => 0x0000_0001#32
  | .convert => 0x0000_0002#32
  | .pace => 0x0000_0003#32
  | .convertPace => 0x0000_0004#32
  | .abort => 0x0000_0005#32
  | .clearErr => 0x0000_0006#32
  | .softReset => 0x0000_0007#32
  | .cvt16 => 0x0000_0010#32
  | .cvt8 => 0x0000_0011#32

/-- The command word whose bits, of which the opcode table gives the lowest `nbits`, are `w`: every command word is one
32-bit write (30_encoding.md R71), and the bits above `nbits` are 0 (log 13). -/
def tableWord (nbits w : Nat) : Word := BitVec.ofNat 32 (w % 2 ^ nbits)

/-- The instruction the decoder reads from a row of the opcode table; a row of more than the one 32-bit word that a
command has names none (30_encoding.md R71; log 13). -/
def decodeTableWord (nbits w : Nat) : Option Instr :=
  if nbits ≤ 32 then
    match decode (tableWord nbits w) with
    | .ok i => some i
    | .error _ => none
  else none

end Sys2Proof
end

