-- ==== Sys2Proof/Config.lean ====
section
/-!
DEFINITION. The OPEN implementation parameters of 00_scope.md R6 and the free values of 70_reset_and_hazards.md R191.
None of the opaque constants has a body: nothing can be proved about its value, so every claim holds for all of them.
-/

namespace Sys2Proof.Config

/-- `CHSEL_PREFIX`, the 4-bit channel-select constant that 00_scope.md R6 leaves OPEN (log 1). -/
opaque chselPrefix : BitVec 4

/-- The number of the 256-byte page that holds the register window: `BASE` is OPEN and 256-byte aligned
(00_scope.md R6, 20_memory.md R60; log 2). -/
opaque basePage : Nat

/-- `BASE`, the address of the register window in the host's address space (00_scope.md R6). -/
def base : Nat := 256 * basePage

/-- The unspecified value, `w` bits wide, of state component number `component` at power-up number `powerUp`, before
the first reset (70_reset_and_hazards.md R191: "any value of its width"; log 10). -/
opaque powerUpDraw (w powerUp component : Nat) : BitVec w

end Sys2Proof.Config
end

