-- ==== Sys2Proof/Machine/State.lean ====
section
/-!
DEFINITION. The state of ASFC (10_state.md R21) as plain data, the values of its input ports in one clock cycle
(00_scope.md R7), what its output ports answer, the reasons a step can stop, and the state after reset (10_state.md R39).
-/

namespace Sys2Proof.Machine

/-- Why a run stops with a fault. Everything else ASFC does goes on: a failed command only writes `STATUS.ERR`
(60_exceptions.md R172, R173). -/
inductive Fault where
  /-- `raise BusError(off)`: an access that is not aligned, or a write without all four strobes (20_memory.md R55).
  Raised by the bus part of a clock cycle; "a model treats an illegal access as a fault of the host agent"
  (60_exceptions.md R175). Safe: the run is refuted, and ASFC's own state would not have changed (log 8). -/
  | busError (off : Offset)
  deriving DecidableEq, Repr

/-- Why a step has no meaning. No arm of `exec` raises one: every command is modelled. -/
inductive Refusal where
  /-- The instruction with this mnemonic has no meaning yet. Raised only by an arm of `exec` that stands for it, and no
  arm does. Safe: a run that meets it stops. -/
  | notModelled (mnemonic : String)
  deriving DecidableEq, Repr

/-- The names of the error codes (60_exceptions.md R170). -/
inductive ErrCode where
  /-- no command has failed since reset, SOFT_RESET or CLEAR_ERR -/
  | none
  /-- CONFIGURE rejected the staged fields -/
  | unsupportedFormat
  /-- a conversion or pace command met `CFG_VALID` = 0 -/
  | notConfigured
  /-- a reserved opcode or `RSV` ≠ 0 -/
  | illegalCmd
  /-- a delay is running -/
  | busy
  deriving DecidableEq, Repr

/-- The complete state of ASFC: the tuple `st` of 10_state.md R21, component by component. "Nothing else in the block
holds a value across clock cycles." -/
structure Block where
  /-- `st.cfg_bits`, the staged bitsPerSample (10_state.md R23) -/
  cfgBits : BitVec 16
  /-- `st.cfg_rate`, the staged sampleRate (10_state.md R24) -/
  cfgRate : BitVec 32
  /-- `st.cfg_brate`, the staged byteRate (10_state.md R25) -/
  cfgBrate : BitVec 32
  /-- `st.data_in`, one stride of raw PCM bytes (10_state.md R26) -/
  dataIn : BitVec 32
  /-- `st.cfg_valid` (10_state.md R27) -/
  cfgValid : Bool
  /-- `st.err`, the code of the most recent failed command (10_state.md R27, 60_exceptions.md R170) -/
  err : BitVec 4
  /-- `st.bps`, bytesPerSample (10_state.md R28) -/
  bps : BitVec 2
  /-- `st.channels`, channelCount (10_state.md R28) -/
  channels : BitVec 2
  /-- `st.interval`, sampleIntervalMicros in ticks (10_state.md R29) -/
  interval : BitVec 32
  /-- `st.pace_count`, the ticks left in the current delay (10_state.md R30) -/
  paceCount : BitVec 32
  /-- `st.word`, the last DAC word (10_state.md R31) -/
  word : BitVec 16
  /-- `st.frame`, the byte-swapped DAC word (10_state.md R32) -/
  frame : BitVec 16
  deriving DecidableEq, Repr

/-- The values of ASFC's input ports at one rising edge of `clk` (00_scope.md R7). -/
structure PortCycle where
  /-- `rst_n`: synchronous reset, active low -/
  rstN : Bool
  /-- `bus_sel`: an access is requested this cycle -/
  busSel : Bool
  /-- `bus_write`: a write, else a read -/
  busWrite : Bool
  /-- `bus_addr`: byte offset within the window -/
  busAddr : Offset
  /-- `bus_strb`: byte-lane strobes -/
  busStrb : BitVec 4
  /-- `bus_wdata`: write data -/
  busWdata : Word
  /-- `us_tick`: the microsecond strobe -/
  usTick : Bool
  deriving DecidableEq, Repr

/-- What ASFC answers to the access of one cycle (00_scope.md R7). -/
structure Reply where
  /-- `bus_rdata`, "valid in the cycle of a read access": none in the cycle of a write (log 6) -/
  rdata : Option Word
  /-- `bus_err`, the error response to the access (20_memory.md R55) -/
  err : Bool
  deriving DecidableEq, Repr

/-- The machine: ASFC's state `st`, and two fields of the MODEL's own (log 3, log 5): the input ports' values in the
cycles to come, and the answer to the access of the cycle just taken (none where that cycle presented no access). -/
structure State where
  /-- the tuple of 10_state.md R21 -/
  st : Block
  /-- the cycles the outside world presents next, the first of the list at the next rising edge of `clk` -/
  inputs : List PortCycle
  /-- the answer on `bus_rdata` and `bus_err` in the last cycle -/
  reply : Option Reply
  deriving DecidableEq, Repr

/-- Every component at its value of 10_state.md R39. -/
def Block.reset : Block :=
  { cfgBits := 0x0000#16
    cfgRate := 0x0000_0000#32
    cfgBrate := 0x0000_0000#32
    dataIn := 0x0000_0000#32
    cfgValid := false
    err := 0#4
    bps := 0#2
    channels := 0#2
    interval := 0x0000_0000#32
    paceCount := 0x0000_0000#32
    word := 0x0000#16
    frame := 0x0000#16 }

/-- The machine right after reset: the launch premise of 70_reset_and_hazards.md R191. No cycle is presented yet and no
access has been answered (the model's own fields, log 4, log 5). -/
def State.reset : State := { st := Block.reset, inputs := [], reply := none }

end Sys2Proof.Machine
end

