-- ==== Sys2Proof/Machine/Flags.lean ====
section
/-!
DEFINITION. The error codes and the values ASFC derives combinationally from its state: `BUSY`, `STRIDE`, and the
registers `STATUS` and `FORMAT` (10_state.md R27, R28, R34 to R36; 60_exceptions.md R170).
-/

namespace Sys2Proof.Machine

/-- The 4-bit value of an error code in `STATUS.ERR` (60_exceptions.md R170). -/
def ErrCode.code : ErrCode → BitVec 4
  | .none => 0#4
  | .unsupportedFormat => 1#4
  | .notConfigured => 2#4
  | .illegalCmd => 3#4
  | .busy => 4#4

/-- `BUSY = (st.pace_count ≠ 0)` (10_state.md R35). -/
def Block.busy (b : Block) : Bool := b.paceCount != 0#32

/-- `STRIDE = st.channels × st.bps` (10_state.md R34), with the product of two 2-bit values kept whole. -/
def Block.stride (b : Block) : BitVec 4 := b.channels.setWidth 4 * b.bps.setWidth 4

/-- The register `STATUS` (10_state.md R27). -/
def Block.status (b : Block) : Word :=
  0#24 ++ b.err ++ 0#2 ++ BitVec.ofBool b.busy ++ BitVec.ofBool b.cfgValid

/-- The register `FORMAT` (10_state.md R28). Its field `STRIDE` has 3 bits, which hold the stride of every state that a
run can reach; elsewhere the low 3 bits are shown and bit [11] stays 0 (log 11). -/
def Block.format (b : Block) : Word :=
  0#16 ++ Config.chselPrefix ++ 0#1 ++ b.stride.setWidth 3 ++ 0#2 ++ b.channels ++ 0#2 ++ b.bps

/-- The output port `busy` equals `STATUS.BUSY` (00_scope.md R7). -/
def State.busyPort (s : State) : Bool := s.st.busy

end Sys2Proof.Machine
end

