-- ==== Sys2Proof/Machine/Operands.lean ====
section
/-!
DEFINITION. Where the operands of the commands come from, and the byte layouts around them: the byte lanes (20_memory.md
R52), the stride in `DATA_IN` (30_encoding.md R76), the first channel's sample (41_convert.md R120), and the order of the
frame's bytes on the wire (30_encoding.md R79).
-/

namespace Sys2Proof.Machine

/-- Byte lane `i` carries bits [8i+7:8i] (20_memory.md R52). -/
def lane (v : Word) (i : Nat) : Byte := v.extractLsb' (8 * i) 8

/-- The word whose lanes, from lane 0 up, are these bytes (20_memory.md R52). No rule says what the lanes past the list
hold: they are those of the argument `fill`, which the model leaves free (DESIGN CHOICE, log 22). -/
def ofLanes (fill : Word) (bytes : List Byte) : Word :=
  bytes.getD 3 (lane fill 3) ++ bytes.getD 2 (lane fill 2) ++ bytes.getD 1 (lane fill 1) ++ bytes.getD 0 (lane fill 0)

/-- The value a host writes to `DATA_IN` for one stride in file order: byte k in `DATA_IN[8k+7:8k]`
(30_encoding.md R76). R76 says that ASFC ignores the lanes at and above STRIDE and that they hold what the host wrote, but
not what that is: here it is those lanes of `fill`, whatever the host has there (DESIGN CHOICE, log 22). -/
def packStride (fill : Word) (bytes : List Byte) : Word := ofLanes fill bytes

/-- `sample16 = st.data_in[15:0]` (41_convert.md R120). -/
def Block.sample16 (b : Block) : Half := b.dataIn.extractLsb' 0 16

/-- `sample8 = st.data_in[7:0]` (41_convert.md R120). -/
def Block.sample8 (b : Block) : Byte := b.dataIn.extractLsb' 0 8

/-- The two bytes the host sends for a frame: `FRAME[7:0]` first, `FRAME[15:8]` second (30_encoding.md R79; log 21). -/
def wireBytes (frame : Half) : List Byte := [frame.extractLsb' 0 8, frame.extractLsb' 8 8]

end Sys2Proof.Machine
end

