-- ==== Sys2Proof/Machine/Ops.lean ====
section
/-!
DEFINITION. The operations the commands and the bus share: the failure primitive (60_exceptions.md R172), the conversion
functions and the assembly of the DAC word (41_convert.md R121, R122, R125), the pacer's load, clear and tick
(42_pacer.md R140, R146, R148), the register window's read view and its stores (20_memory.md R56, R57), and reset.
ASFC takes no exception and returns from none (60_exceptions.md R173, R174): `Block.fail` is all a failure does.
-/

namespace Sys2Proof.Machine

/-- `fail(code)`: `st.err` ← code, no other component changes (60_exceptions.md R172). -/
def Block.fail (b : Block) (e : ErrCode) : Block := { b with err := e.code }

/-- `CLEAR_ERR`'s write: `st.err` ← 0 (43_control.md R161). -/
def Block.clearErr (b : Block) : Block := { b with err := ErrCode.none.code }

/-- `conv16`: sign-extend to 32 bits, add 0x8000, shift right by 4, keep 12 bits (41_convert.md R121; log 19). -/
def conv16 (h : Half) : Code := ((h.signExtend 32 + 0x8000#32) >>> 4).extractLsb' 0 12

/-- `conv8`: zero-extend to 16 bits, shift left by 4, mask with 0x0FFF (41_convert.md R122; log 19). -/
def conv8 (b : Byte) : Code := ((b.setWidth 16 <<< 4) &&& 0x0FFF#16).extractLsb' 0 12

/-- `swap16(v)` = `v[7:0] : v[15:8]` (00_scope.md R9). -/
def swap16 (v : Half) : Half := v.extractLsb' 0 8 ++ v.extractLsb' 8 8

/-- The DAC word for a channel-select prefix and a code, by addition (41_convert.md R125; 90_conflicts.md C1). -/
def dacWord (chsel : BitVec 4) (code : Code) : Half := (chsel.setWidth 16 <<< 12) + code.setWidth 16

/-- `assemble(code)`: `st.word` and `st.frame` from a code (41_convert.md R125). -/
def Block.assemble (b : Block) (code : Code) : Block :=
  { b with word := dacWord Config.chselPrefix code, frame := swap16 (dacWord Config.chselPrefix code) }

/-- The code of the configured depth: `conv16` when `st.bps` = 2, else `conv8` (41_convert.md R126; log 12). -/
def Block.configuredCode (b : Block) : Code :=
  if b.bps = 2#2 then conv16 b.sample16 else conv8 b.sample8

/-- `st.pace_count` ← `st.interval` (42_pacer.md R140). -/
def Block.startDelay (b : Block) : Block := { b with paceCount := b.interval }

/-- `st.pace_count` ← 0 (42_pacer.md R146). -/
def Block.stopDelay (b : Block) : Block := { b with paceCount := 0#32 }

/-- One tick: the counter steps down and never wraps below 0 (42_pacer.md R148). -/
def Block.tick (b : Block) : Block :=
  if b.paceCount ≠ 0#32 then { b with paceCount := b.paceCount - 1#32 } else b

/-- The register of 10_state.md at an offset, as a legal read returns it: every reserved bit 0, and 0 for `CMD` and the
reserved offsets (20_memory.md R56; 10_state.md R22 to R33). -/
def Block.view (b : Block) (off : Offset) : Word :=
  if off = 0x04#8 then b.status
  else if off = 0x08#8 then b.cfgBits.setWidth 32
  else if off = 0x0C#8 then b.cfgRate
  else if off = 0x10#8 then b.cfgBrate
  else if off = 0x14#8 then b.dataIn
  else if off = 0x18#8 then b.frame.setWidth 32
  else if off = 0x1C#8 then b.interval
  else if off = 0x20#8 then b.format
  else if off = 0x24#8 then b.paceCount
  else if off = 0x28#8 then b.word.setWidth 32
  else 0x0000_0000#32

/-- A legal write at an offset other than that of `CMD`: the four RW registers store, RO registers and reserved offsets
ignore it (20_memory.md R57). -/
def Block.store (b : Block) (off : Offset) (v : Word) : Block :=
  if off = 0x08#8 then { b with cfgBits := v.extractLsb' 0 16 }
  else if off = 0x0C#8 then { b with cfgRate := v }
  else if off = 0x10#8 then { b with cfgBrate := v }
  else if off = 0x14#8 then { b with dataIn := v }
  else b

/-- The end of a command: all its writes to ASFC's state take effect together (00_scope.md R10), and it completes. -/
def commit (s : State) (b : Block) : Host.Outcome State Fault Refusal := .next { s with st := b }

/-- The block before the first reset: a draw for each component (70_reset_and_hazards.md R191; log 10). -/
def Block.powerUp (n : Nat) : Block :=
  { cfgBits := Config.powerUpDraw 16 n 0
    cfgRate := Config.powerUpDraw 32 n 1
    cfgBrate := Config.powerUpDraw 32 n 2
    dataIn := Config.powerUpDraw 32 n 3
    cfgValid := (Config.powerUpDraw 1 n 4).getLsbD 0
    err := Config.powerUpDraw 4 n 5
    bps := Config.powerUpDraw 2 n 6
    channels := Config.powerUpDraw 2 n 7
    interval := Config.powerUpDraw 32 n 8
    paceCount := Config.powerUpDraw 32 n 9
    word := Config.powerUpDraw 16 n 10
    frame := Config.powerUpDraw 16 n 11 }

/-- The machine at power-up number `n`, before the first reset, with the cycles the platform presents
(70_reset_and_hazards.md R191). What accesses, commands and ticks do before the first reset the spec leaves open: every
component is unspecified until then (R191) and ASFC's rules do not hold yet (R193). The model's step has no note of it and
applies the ordinary rules to the drawn block (DESIGN CHOICE, log 23). -/
def State.powerUp (n : Nat) (cycles : List PortCycle) : State :=
  { st := Block.powerUp n, inputs := cycles, reply := none }

end Sys2Proof.Machine
end

