-- ==== Sys2Proof/Machine/Configure.lean ====
section
/-!
DEFINITION. CONFIGURE (40_configure.md R100 to R110) and the derivation it performs.
-/

namespace Sys2Proof.Machine

/-- Bytes per sample: exactly 8 and 16 bits are accepted (40_configure.md R101; 90_conflicts.md C2). -/
def bytesPerSample (bits : BitVec 16) : Option (BitVec 2) :=
  if bits = 8#16 then some 1#2
  else if bits = 16#16 then some 2#2
  else none

/-- `ch = (brate / rate) / b`, two unsigned truncating divisions (40_configure.md R106). -/
def channelCount (brate rate : Word) (b : BitVec 2) : Word := brate / rate / b.setWidth 32

/-- `1_000_000 / rate`, unsigned and truncating (40_configure.md R104; log 19). -/
def sampleInterval (rate : Word) : Word := 1000000#32 / rate

/-- What CONFIGURE derives from the staged fields (bytes per sample, channels, interval), or none where a check fails:
the rate, then the depth, then the channel count (40_configure.md R100, R102). -/
def deriveFormat (bits : BitVec 16) (rate brate : Word) : Option (BitVec 2 × BitVec 2 × Word) :=
  if rate = 0#32 then none
  else match bytesPerSample bits with
    | none => none
    | some b =>
      if channelCount brate rate b = 1#32 then some (b, 1#2, sampleInterval rate)
      else if channelCount brate rate b = 2#32 then some (b, 2#2, sampleInterval rate)
      else none

/-- CONFIGURE's writes on success (40_configure.md R103). -/
def Block.accept (b : Block) (bps channels : BitVec 2) (interval : Word) : Block :=
  { b with cfgValid := true, bps := bps, channels := channels, interval := interval }

/-- CONFIGURE's writes on a reject (40_configure.md R105). -/
def Block.reject (b : Block) : Block :=
  { b with
    cfgValid := false, bps := 0#2, channels := 0#2, interval := 0#32
    err := ErrCode.unsupportedFormat.code }

/-- `CONFIGURE` (40_configure.md R100). -/
def execConfigure (s : State) : Host.Outcome State Fault Refusal :=
  commit s <|
    if s.st.busy then s.st.fail .busy
    else match deriveFormat s.st.cfgBits s.st.cfgRate s.st.cfgBrate with
      | some (bps, channels, interval) => s.st.accept bps channels interval
      | none => s.st.reject

end Sys2Proof.Machine
end

