-- ==== Sys2Proof/Machine/Control.lean ====
section
/-!
DEFINITION. The control commands NOP, CLEAR_ERR and SOFT_RESET (43_control.md R160 to R162).
-/

namespace Sys2Proof.Machine

/-- `NOP` (43_control.md R160). -/
def execNop (s : State) : Host.Outcome State Fault Refusal := commit s s.st

/-- `CLEAR_ERR` (43_control.md R161). -/
def execClearErr (s : State) : Host.Outcome State Fault Refusal := commit s s.st.clearErr

/-- `SOFT_RESET`: every component of 10_state.md R21 takes its value of R39 (43_control.md R162). -/
def execSoftReset (s : State) : Host.Outcome State Fault Refusal := commit s Block.reset

end Sys2Proof.Machine
end

