-- ==== Sys2Proof/Machine/Convert.lean ====
section
/-!
DEFINITION. The conversion commands CONVERT, CVT16 and CVT8 (41_convert.md R126 to R128).
-/

namespace Sys2Proof.Machine

/-- `CONVERT` (41_convert.md R126). -/
def execConvert (s : State) : Host.Outcome State Fault Refusal :=
  commit s <|
    if s.st.cfgValid = false then s.st.fail .notConfigured
    else s.st.assemble s.st.configuredCode

/-- `CVT16` (41_convert.md R127). -/
def execCvt16 (s : State) : Host.Outcome State Fault Refusal :=
  commit s (s.st.assemble (conv16 s.st.sample16))

/-- `CVT8` (41_convert.md R128). -/
def execCvt8 (s : State) : Host.Outcome State Fault Refusal :=
  commit s (s.st.assemble (conv8 s.st.sample8))

end Sys2Proof.Machine
end

