-- ==== Sys2Proof/Machine/Pacer.lean ====
section
/-!
DEFINITION. The pacer commands PACE, CONVERT_PACE and ABORT (42_pacer.md R140, R143, R146). Their failures are checked in
the order of 60_exceptions.md R177: NOT_CONFIGURED, then BUSY.
-/

namespace Sys2Proof.Machine

/-- `PACE` (42_pacer.md R140). -/
def execPace (s : State) : Host.Outcome State Fault Refusal :=
  commit s <|
    if s.st.cfgValid = false then s.st.fail .notConfigured
    else if s.st.busy then s.st.fail .busy
    else s.st.startDelay

/-- `CONVERT_PACE` (42_pacer.md R143). -/
def execConvertPace (s : State) : Host.Outcome State Fault Refusal :=
  commit s <|
    if s.st.cfgValid = false then s.st.fail .notConfigured
    else if s.st.busy then s.st.fail .busy
    else (s.st.assemble s.st.configuredCode).startDelay

/-- `ABORT` (42_pacer.md R146). -/
def execAbort (s : State) : Host.Outcome State Fault Refusal := commit s s.st.stopDelay

end Sys2Proof.Machine
end

