-- ==== Sys2Proof/Machine/Dispatch.lean ====
section
/-!
DEFINITION. One arm per command of the opcode map (30_encoding.md R73), each one call of the command's meaning.
-/

namespace Sys2Proof.Machine

def exec (i : Instr) (s : State) : Host.Outcome State Fault Refusal :=
  match i with
  | .nop => Sys2Proof.Machine.execNop s
  | .configure => Sys2Proof.Machine.execConfigure s
  | .convert => Sys2Proof.Machine.execConvert s
  | .pace => Sys2Proof.Machine.execPace s
  | .convertPace => Sys2Proof.Machine.execConvertPace s
  | .abort => Sys2Proof.Machine.execAbort s
  | .clearErr => Sys2Proof.Machine.execClearErr s
  | .softReset => Sys2Proof.Machine.execSoftReset s
  | .cvt16 => Sys2Proof.Machine.execCvt16 s
  | .cvt8 => Sys2Proof.Machine.execCvt8 s

end Sys2Proof.Machine
end

