-- ==== Sys2Proof/Machine/Bus.lean ====
section
/-!
DEFINITION. The register bus and one clock cycle: which accesses are legal and how ASFC answers (20_memory.md R55 to R57),
the execution of a word written to `CMD` (30_encoding.md R74), the tick (42_pacer.md R148), reset (70_reset_and_hazards.md
R190) and their order within one cycle (60_exceptions.md R178); and the cycles a host presents (20_memory.md R50).
-/

namespace Sys2Proof.Machine

/-! The cycles the three agents of 00_scope.md R5 present on their own, and the host's access primitives. -/

/-- A cycle in which no agent acts: reset released, no access, no tick. -/
def PortCycle.idle : PortCycle :=
  { rstN := true, busSel := false, busWrite := false, busAddr := 0x00#8, busStrb := 0b0000#4
    busWdata := 0x0000_0000#32, usTick := false }

/-- The Tick agent's step: one strobe on `us_tick` (00_scope.md R5). -/
def PortCycle.tick : PortCycle := { PortCycle.idle with usTick := true }

/-- The Reset agent's step: `rst_n` = 0 (00_scope.md R5). -/
def PortCycle.reset : PortCycle := { PortCycle.idle with rstN := false }

/-- A 32-bit read at an offset: `bus_sel`=1, `bus_write`=0, `bus_addr`=off (20_memory.md R50). -/
def PortCycle.read (off : Offset) : PortCycle := { PortCycle.idle with busSel := true, busAddr := off }

/-- A 32-bit write at an offset: all four strobes (20_memory.md R50). -/
def PortCycle.write (off : Offset) (v : Word) : PortCycle :=
  { PortCycle.idle with busSel := true, busWrite := true, busAddr := off, busStrb := 0b1111#4, busWdata := v }

/-- A write of a command word to `CMD`, offset 0x00 (30_encoding.md R70). -/
def PortCycle.command (v : Word) : PortCycle := PortCycle.write 0x00#8 v

/-- The host's decode of `BASE`: it selects ASFC for the addresses of its window (20_memory.md R50, R60; log 2). -/
def inWindow (addr : Nat) : Bool := decide (Config.base ≤ addr ∧ addr < Config.base + 256)

/-- `MemRead(addr, 4)`: ASFC is selected inside the window and decodes only the low 8 bits (20_memory.md R50). -/
def PortCycle.memRead (addr : Nat) : PortCycle :=
  { PortCycle.read (BitVec.ofNat 8 addr) with busSel := inWindow addr }

/-- `MemWrite(addr, 4, v)` (20_memory.md R50). -/
def PortCycle.memWrite (addr : Nat) (v : Word) : PortCycle :=
  { PortCycle.write (BitVec.ofNat 8 addr) v with busSel := inWindow addr }

/-! The bus. -/

/-- A legal access: aligned and, for a write, with all four strobes; a read's strobes are ignored (20_memory.md R55). -/
def PortCycle.legal (c : PortCycle) : Bool :=
  c.busAddr.extractLsb' 0 2 == 0b00#2 && (!c.busWrite || c.busStrb == 0b1111#4)

/-- ASFC is selected, out of reset, by an access that is not legal (20_memory.md R55; log 7). -/
def PortCycle.illegalAccess (c : PortCycle) : Bool := c.rstN && c.busSel && !c.legal

/-- What ASFC drives on `bus_rdata` and `bus_err` in a cycle that presents an access, as hardware (00_scope.md R7): in a
reset cycle a read returns 0 without error (70_reset_and_hazards.md R190; log 7), an illegal access gets an error and a
read of 0 (20_memory.md R55), a legal read gets the register (R56), a legal write no error. `bus_rdata` is valid for reads
only (log 6). -/
def busReply (b : Block) (c : PortCycle) : Option Reply :=
  if c.busSel = false then none
  else some
    { rdata :=
        if c.busWrite then none
        else if c.rstN && c.legal then some (b.view c.busAddr)
        else some 0x0000_0000#32
      err := c.illegalAccess }

/-- `execute_command(v)`: the command `v` names, or `fail(ILLEGAL_CMD)` (30_encoding.md R74, R75). -/
def executeCommand (v : Word) (s : State) : Host.Outcome State Fault Refusal :=
  match decode v with
  | .ok i => exec i s
  | .error _ => commit s (s.st.fail .illegalCmd)

/-- A legal write (20_memory.md R57): offset 0x00 executes a command, the others store or do nothing. -/
def writeRegister (off : Offset) (v : Word) (s : State) : Host.Outcome State Fault Refusal :=
  if off = 0x00#8 then executeCommand v s else commit s (s.st.store off v)

/-- What the access of a cycle does to ASFC's state, as hardware: a legal write acts, a read and an illegal access change
nothing (20_memory.md R55 to R57). -/
def accessEffect (c : PortCycle) (s : State) : Host.Outcome State Fault Refusal :=
  if c.busSel && c.legal && c.busWrite then writeRegister c.busAddr c.busWdata s else commit s s.st

/-- What `us_tick` does in a cycle (42_pacer.md R148). -/
def tickEffect (c : PortCycle) (s : State) : State := if c.usTick then { s with st := s.st.tick } else s

/-- One rising edge of `clk` (60_exceptions.md R178): with `rst_n` = 0 reset alone, any access or tick ignored; otherwise
the access, then the tick. An illegal access is a fault of the host's access (60_exceptions.md R175; log 8). -/
def clockCycle (c : PortCycle) (s : State) : Host.Outcome State Fault Refusal :=
  if c.rstN = false then .next { s with st := Block.reset, reply := busReply s.st c }
  else if c.illegalAccess then .fault (.busError c.busAddr)
  else match accessEffect c { s with reply := busReply s.st c } with
    | .next t => .next (tickEffect c t)
    | .fault f => .fault f
    | .refused r => .refused r

/-- The next rising edge of `clk`: it takes the first of the presented cycles; where none is left, nothing acts on ASFC
and the cycle is idle (log 3, log 4). -/
def clockEdge (s : State) : Host.Outcome State Fault Refusal :=
  match s.inputs with
  | [] => clockCycle PortCycle.idle s
  | c :: rest => clockCycle c { s with inputs := rest }

end Sys2Proof.Machine
end

