-- ==== Sys2Proof/Machine/Step.lean ====
section
/-!
DEFINITION. One step of the machine: one rising edge of `clk`.
-/

namespace Sys2Proof.Machine

/-- One step: the next rising edge of `clk` (00_scope.md R5, R7; 60_exceptions.md R178). -/
def step (s : State) : Host.Outcome State Fault Refusal := clockEdge s

/-- The state `s` in which the host presents, in the very next cycle, the write to `CMD` of the command word whose bits
are `w` (30_encoding.md R74): that is where ASFC takes its next command from (log 9). -/
def State.withFetchWord (s : State) (nbits w : Nat) : State :=
  { s with inputs := PortCycle.command (tableWord nbits w) :: s.inputs }

end Sys2Proof.Machine
end

