-- ==== Sys2Proof/Machine/HostNotation.lean ====
section
/-!
DEFINITION. The host side, which is no part of ASFC's state: the notation of host programs (30_encoding.md R80, R81) with
the host's registers h0 to h7. Every transaction goes through the machine's own `step` (log 15).
-/

namespace Sys2Proof.Machine

/-- The register names of the map in 10_state.md. -/
inductive RegName where
  | cmd
  | status
  | cfgBits
  | cfgSampleRate
  | cfgByteRate
  | dataIn
  | frame
  | interval
  | format
  | paceCount
  | word
  deriving DecidableEq, Repr

/-- `off(REG)`: the offset of a register (10_state.md, register map). -/
def RegName.off : RegName → Offset
  | .cmd => 0x00#8
  | .status => 0x04#8
  | .cfgBits => 0x08#8
  | .cfgSampleRate => 0x0C#8
  | .cfgByteRate => 0x10#8
  | .dataIn => 0x14#8
  | .frame => 0x18#8
  | .interval => 0x1C#8
  | .format => 0x20#8
  | .paceCount => 0x24#8
  | .word => 0x28#8

/-- The forms of the host notation (30_encoding.md R80). A label is the line it names (log 15). -/
inductive HostInstr where
  | wr (r : RegName) (imm : Word)
  | wrh (r : RegName) (h : Fin 8)
  | rd (h : Fin 8) (r : RegName)
  | tick
  | andi (h : Fin 8) (imm : Word)
  | addi (h : Fin 8) (imm : Word)
  | li (h : Fin 8) (imm : Word)
  | bnez (h : Fin 8) (line : Nat)
  | beqz (h : Fin 8) (line : Nat)
  | halt
  deriving DecidableEq, Repr

/-- The device `s` after one more cycle, presented in front of the others, by the machine's own step. -/
def State.present (s : State) (c : PortCycle) : Host.Outcome State Fault Refusal :=
  step { s with inputs := c :: s.inputs }

/-- The data of the last read: `bus_rdata` (00_scope.md R7). -/
def State.readData (s : State) : Word := (s.reply.bind Reply.rdata).getD 0x0000_0000#32

/-- A host program at work on an ASFC: the device, the host's registers h0 to h7 and the line it is at. -/
structure HostRun where
  dev : State
  h : Vector Word 8
  line : Nat
  deriving DecidableEq, Repr

/-- `cmd M` expands to `wr CMD, opcode(M)` (30_encoding.md R81). -/
def HostInstr.cmd (i : Instr) : HostInstr := .wr .cmd (encode i)

/-- `wait_idle`, placed at line `at_`: read `STATUS` into h7 until its bit `BUSY` is 0 (30_encoding.md R81). -/
def waitIdle (at_ : Nat) : List HostInstr := [.rd 7 .status, .andi 7 0x2#32, .bnez 7 at_]

/-- `check_ok`: the field `ERR` of `STATUS` in h6 (30_encoding.md R81). -/
def checkOk : List HostInstr := [.rd 6 .status, .andi 6 0xF0#32]

/-- The host goes to the next line. -/
def HostRun.advance (y : HostRun) : HostRun := { y with line := y.line + 1 }

/-- A host register's new value. -/
def HostRun.setReg (y : HostRun) (n : Fin 8) (v : Word) : HostRun := { y with h := y.h.set n v }

/-- The data of the last read. -/
def HostRun.readData (y : HostRun) : Word := y.dev.readData

/-- One cycle presented to the device, by the machine's own step. -/
def HostRun.present (y : HostRun) (c : PortCycle) : Host.Outcome HostRun Fault Refusal :=
  match y.dev.present c with
  | .next d => .next { y with dev := d }
  | .fault f => .fault f
  | .refused r => .refused r

/-- What follows a step that goes on. -/
def HostRun.after (o : Host.Outcome HostRun Fault Refusal) (f : HostRun → HostRun) : Host.Outcome HostRun Fault Refusal :=
  match o with
  | .next y => .next (f y)
  | .fault r => .fault r
  | .refused r => .refused r

/-- One form of the host notation (30_encoding.md R80). A halted host takes no further step of its own. -/
def HostRun.perform (y : HostRun) : HostInstr → Host.Outcome HostRun Fault Refusal
  | .wr r imm => HostRun.after (y.present (PortCycle.write r.off imm)) HostRun.advance
  | .wrh r n => HostRun.after (y.present (PortCycle.write r.off y.h[n])) HostRun.advance
  | .rd n r => HostRun.after (y.present (PortCycle.read r.off)) fun z => (z.setReg n z.readData).advance
  | .tick => HostRun.after (y.present PortCycle.tick) HostRun.advance
  | .andi n imm => .next (y.setReg n (y.h[n] &&& imm)).advance
  | .addi n imm => .next (y.setReg n (y.h[n] + imm)).advance
  | .li n imm => .next (y.setReg n imm).advance
  | .bnez n target => .next (if y.h[n] ≠ 0#32 then { y with line := target } else y.advance)
  | .beqz n target => .next (if y.h[n] = 0#32 then { y with line := target } else y.advance)
  | .halt => .next y

/-- The host's step in a program; past its last line a program has halted (log 15). -/
def HostRun.hostStep (program : List HostInstr) (y : HostRun) : Host.Outcome HostRun Fault Refusal :=
  match program[y.line]? with
  | some i => y.perform i
  | none => .next y

/-- The Tick agent's step between two host steps (30_encoding.md R81, 42_pacer.md R149). -/
def HostRun.tickStep (y : HostRun) : Host.Outcome HostRun Fault Refusal := y.present PortCycle.tick

/-- The start state of a host program on a device (30_encoding.md R80; host registers start at 0, log 15). -/
def HostRun.start (dev : State) : HostRun := { dev := dev, h := Vector.replicate 8 0#32, line := 0 }

end Sys2Proof.Machine
end

