-- ==== Sys2Proof/Machine/Playback.lean ====
section
/-!
DEFINITION. The host's playback, which is no part of ASFC's state: the sequence of 70_reset_and_hazards.md R194 with its
branches and loops, the interactions of 60_exceptions.md R184, the strides of R200 and the teardown of R201. Every access
goes through the machine's own `step` (log 24).
-/

namespace Sys2Proof.Machine

/-- The header fields the host has parsed (00_scope.md R12). -/
structure Header where
  /-- bitsPerSample -/
  bitsPerSample : BitVec 16
  /-- sampleRate -/
  sampleRate : Word
  /-- byteRate -/
  byteRate : Word
  deriving DecidableEq, Repr

/-- The strides a host converts from a buffer of bytes: the one at byte index i only when i + STRIDE ≤ the bytes read,
stepping by STRIDE, so that a trailing partial stride is dropped (70_reset_and_hazards.md R200; 90_conflicts.md C4). -/
def wholeStrides (stride : Nat) (bytes : List Byte) : List (List Byte) :=
  (List.range (bytes.length / stride)).map fun k => (bytes.drop (k * stride)).take stride

/-- The states of the source's loop (70_reset_and_hazards.md R194), and the stop at a rejected header. -/
inductive PlaybackPhase where
  | awaitHeader
  | streaming
  | drained
  | stopped
  deriving DecidableEq, Repr

/-- Where the host is in the sequence of 70_reset_and_hazards.md R194. -/
inductive PlaybackLine where
  /-- write `CFG_BITS` -/
  | writeBits
  /-- write `CFG_SAMPLE_RATE` -/
  | writeSampleRate
  /-- write `CFG_BYTE_RATE` -/
  | writeByteRate
  /-- issue CONFIGURE -/
  | configure
  /-- read `STATUS`; stop playback if `ERR` = 1 or `CFG_VALID` = 0 -/
  | readStatus
  /-- read `FORMAT.STRIDE` -/
  | readStride
  /-- fill the host buffer from the file -/
  | fillBuffer
  /-- write the next whole stride of the buffer into `DATA_IN` -/
  | nextStride
  /-- issue CONVERT -/
  | convert
  /-- read `FRAME` and transfer its two bytes -/
  | transferFrame
  /-- issue PACE -/
  | pace
  /-- `wait_idle` -/
  | waitIdle
  /-- the stream is exhausted -/
  | drained
  /-- the header was rejected -/
  | stopped
  deriving DecidableEq, Repr

/-- The step of 70_reset_and_hazards.md R194 that a line belongs to. -/
def PlaybackLine.phase : PlaybackLine → PlaybackPhase
  | .writeBits => .awaitHeader
  | .writeSampleRate => .awaitHeader
  | .writeByteRate => .awaitHeader
  | .configure => .awaitHeader
  | .readStatus => .awaitHeader
  | .readStride => .awaitHeader
  | .fillBuffer => .streaming
  | .nextStride => .streaming
  | .convert => .streaming
  | .transferFrame => .streaming
  | .pace => .streaming
  | .waitIdle => .streaming
  | .drained => .drained
  | .stopped => .stopped

/-- A host at work on the playback of one file. -/
structure Playback where
  /-- the ASFC it drives -/
  dev : State
  /-- the parsed header -/
  header : Header
  /-- what the reads of the file still to come return, block by block; a read past the last returns no bytes -/
  blocks : List (List Byte)
  /-- the whole strides of the host buffer still to be converted -/
  strides : List (List Byte)
  /-- `FORMAT.STRIDE` as read after CONFIGURE -/
  stride : Nat
  /-- what the host's writes of `DATA_IN` hold in the lanes past the stride (log 22) -/
  fill : Word
  /-- the bytes transferred to the DAC link so far, in order -/
  sent : List Byte
  /-- where the host is in the sequence -/
  line : PlaybackLine
  deriving DecidableEq, Repr

/-- The start of playback on a device (70_reset_and_hazards.md R194 step 1). -/
def Playback.start (dev : State) (header : Header) (blocks : List (List Byte)) (fill : Word) : Playback :=
  { dev := dev, header := header, blocks := blocks, strides := [], stride := 0, fill := fill, sent := []
    line := .writeBits }

/-- The access the host makes at its line, none where it acts on its own side only (70_reset_and_hazards.md R194). -/
def Playback.access (y : Playback) : Option PortCycle :=
  match y.line with
  | .writeBits => some (PortCycle.write RegName.cfgBits.off (y.header.bitsPerSample.setWidth 32))
  | .writeSampleRate => some (PortCycle.write RegName.cfgSampleRate.off y.header.sampleRate)
  | .writeByteRate => some (PortCycle.write RegName.cfgByteRate.off y.header.byteRate)
  | .configure => some (PortCycle.command (encode .configure))
  | .readStatus => some (PortCycle.read RegName.status.off)
  | .readStride => some (PortCycle.read RegName.format.off)
  | .fillBuffer => none
  | .nextStride => y.strides.head?.map fun p => PortCycle.write RegName.dataIn.off (packStride y.fill p)
  | .convert => some (PortCycle.command (encode .convert))
  | .transferFrame => some (PortCycle.read RegName.frame.off)
  | .pace => some (PortCycle.command (encode .pace))
  | .waitIdle => some (PortCycle.read RegName.status.off)
  | .drained => none
  | .stopped => none

/-- What the host does after its access, or alone: its branches, its buffer and its transfer (70_reset_and_hazards.md R194,
R200; 30_encoding.md R79, R81). -/
def Playback.proceed (y : Playback) : Playback :=
  match y.line with
  | .writeBits => { y with line := .writeSampleRate }
  | .writeSampleRate => { y with line := .writeByteRate }
  | .writeByteRate => { y with line := .configure }
  | .configure => { y with line := .readStatus }
  | .readStatus =>
    if y.dev.readData.extractLsb' 4 4 = 1#4 ∨ y.dev.readData.extractLsb' 0 1 = 0#1 then { y with line := .stopped }
    else { y with line := .readStride }
  | .readStride => { y with stride := (y.dev.readData.extractLsb' 8 3).toNat, line := .fillBuffer }
  | .fillBuffer =>
    match y.blocks with
    | [] => { y with line := .drained }
    | [] :: rest => { y with blocks := rest, line := .drained }
    | block :: rest => { y with blocks := rest, strides := wholeStrides y.stride block, line := .nextStride }
  | .nextStride =>
    match y.strides with
    | [] => { y with line := .fillBuffer }
    | _ :: rest => { y with strides := rest, line := .convert }
  | .convert => { y with line := .transferFrame }
  | .transferFrame => { y with sent := y.sent ++ wireBytes (y.dev.readData.extractLsb' 0 16), line := .pace }
  | .pace => { y with line := .waitIdle }
  | .waitIdle => if y.dev.readData &&& 0x2#32 = 0#32 then { y with line := .nextStride } else y
  | .drained => y
  | .stopped => y

/-- One cycle presented to the device, and what the host then does. -/
def Playback.present (y : Playback) (c : PortCycle) (f : Playback → Playback) : Host.Outcome Playback Fault Refusal :=
  match y.dev.present c with
  | .next d => .next (f { y with dev := d })
  | .fault r => .fault r
  | .refused r => .refused r

/-- The host's step in playback (70_reset_and_hazards.md R194). Drained or stopped, it takes no further step of its own and
ASFC stays idle. -/
def Playback.hostStep (y : Playback) : Host.Outcome Playback Fault Refusal :=
  match y.access with
  | some c => y.present c Playback.proceed
  | none => .next y.proceed

/-- The Tick agent's step between two host steps (42_pacer.md R149). -/
def Playback.tickStep (y : Playback) : Host.Outcome Playback Fault Refusal := y.present PortCycle.tick id

/-- The commands that leave ASFC idle at exit (70_reset_and_hazards.md R201). -/
inductive Teardown where
  | abort
  | softReset
  deriving DecidableEq, Repr

/-- The command a teardown issues (70_reset_and_hazards.md R201). -/
def Teardown.command : Teardown → Instr
  | .abort => .abort
  | .softReset => .softReset

/-- The liberty of an exit path, drained or stopped: ABORT or SOFT_RESET (70_reset_and_hazards.md R194 step 3, R201). -/
def Playback.teardown (y : Playback) (t : Teardown) : Host.Outcome Playback Fault Refusal :=
  y.present (PortCycle.command (encode t.command)) id

/-- Who acts next: the host and the Tick agent interleave in any order (42_pacer.md R149). -/
inductive PlaybackEvent where
  | host
  | tick
  deriving DecidableEq, Repr

/-- The step of one agent. -/
def Playback.act (y : Playback) : PlaybackEvent → Host.Outcome Playback Fault Refusal
  | .host => y.hostStep
  | .tick => y.tickStep

/-- Playback along an interleaving of the two agents. -/
def Playback.run : List PlaybackEvent → Playback → Host.Outcome Playback Fault Refusal
  | [], y => .next y
  | e :: rest, y =>
    match y.act e with
    | .next z => Playback.run rest z
    | .fault r => .fault r
    | .refused r => .refused r

/-- The accesses of AwaitHeader with an accepted header, in order; a rejected one stops playback after the read of `STATUS`
(60_exceptions.md R184 "configure"; 70_reset_and_hazards.md R194 step 1). -/
def configureTransactions (header : Header) : List PortCycle :=
  [PortCycle.write RegName.cfgBits.off (header.bitsPerSample.setWidth 32),
    PortCycle.write RegName.cfgSampleRate.off header.sampleRate, PortCycle.write RegName.cfgByteRate.off header.byteRate,
    PortCycle.command (encode .configure), PortCycle.read RegName.status.off, PortCycle.read RegName.format.off]

/-- The accesses of one stride in the source's order, the last one repeated by `wait_idle` while it shows `BUSY` = 1
(60_exceptions.md R184; 42_pacer.md R144; 70_reset_and_hazards.md R194 step 2). -/
def strideTransactions (fill : Word) (stride : List Byte) : List PortCycle :=
  [PortCycle.write RegName.dataIn.off (packStride fill stride), PortCycle.command (encode .convert),
    PortCycle.read RegName.frame.off, PortCycle.command (encode .pace), PortCycle.read RegName.status.off]

end Sys2Proof.Machine
end

