-- ==== Sys2Proof/Safety.lean ====
section
/-!
DEFINITION. What counts as a safe run of ASFC, in the terms the claims use: the invariants of 10_state.md R38, the
components each command reads and writes (30_encoding.md R72), the failures each can report (60_exceptions.md R187), and
the cycles a host may present.
-/

namespace Sys2Proof.Machine

/-- The invariants of 10_state.md R38, item by item, of a block whose last successful CONFIGURE latched the sample rate
`rate` (log 14). -/
structure Invariants (b : Block) (rate : Word) : Prop where
  /-- item 1 -/
  unconfigured : b.cfgValid = false → b.bps = 0#2 ∧ b.channels = 0#2 ∧ b.interval = 0#32
  /-- item 2 -/
  configured : b.cfgValid = true →
    (b.bps = 1#2 ∨ b.bps = 2#2) ∧ (b.channels = 1#2 ∨ b.channels = 2#2) ∧
      rate ≠ 0#32 ∧ b.interval.toNat = 1000000 / rate.toNat
  /-- item 3 -/
  delay : b.paceCount ≠ 0#32 → b.cfgValid = true ∧ b.paceCount.toNat ≤ b.interval.toNat
  /-- item 4 -/
  frameSwapped : b.frame = swap16 b.word
  /-- item 5 -/
  wordPrefixed : b.word = 0x0000#16 ∨ b.word.extractLsb' 12 4 = Config.chselPrefix
  /-- item 6 -/
  errKnown : b.err.toNat ≤ 4

/-- The cycle executes the command `i`: out of reset, a legal write to `CMD` of a word that names it. -/
def PortCycle.runs (c : PortCycle) (i : Instr) : Bool :=
  c.rstN && c.busSel && c.busWrite && c.legal && c.busAddr == 0x00#8 &&
    match decode c.busWdata with
    | .ok j => decide (j = i)
    | .error _ => false

/-- CONFIGURE would succeed: the pacer is idle and the staged fields pass the checks (40_configure.md R100). -/
def Block.configureSucceeds (b : Block) : Bool :=
  !b.busy && (deriveFormat b.cfgBits b.cfgRate b.cfgBrate).isSome

/-- The sample rate latched by the last successful CONFIGURE once the next step is done (10_state.md R38 item 2). -/
def latchedRate (s : State) (rate : Word) : Word :=
  match s.inputs with
  | [] => rate
  | c :: _ => if c.runs .configure && s.st.configureSucceeds then s.st.cfgRate else rate

/-- The same after `n` steps. -/
def latchedAfter : Nat → State → Word → Word
  | 0, _, rate => rate
  | n + 1, s, rate =>
    match step s with
    | .next t => latchedAfter n t (latchedRate s rate)
    | .fault _ => rate
    | .refused _ => rate

/-- A run of `n` steps that meets neither a fault nor a refusal. -/
def SafeRun (n : Nat) (s : State) : Prop := ∃ t, Sys2Proof.core.run n s = .next t

/-- The components of the state tuple (10_state.md R21). -/
inductive Component where
  | cfgBits
  | cfgRate
  | cfgBrate
  | dataIn
  | cfgValid
  | err
  | bps
  | channels
  | interval
  | paceCount
  | word
  | frame
  deriving DecidableEq, Repr

/-- A component's value, as an unsigned number (00_scope.md R9). -/
def Block.get (b : Block) : Component → Nat
  | .cfgBits => b.cfgBits.toNat
  | .cfgRate => b.cfgRate.toNat
  | .cfgBrate => b.cfgBrate.toNat
  | .dataIn => b.dataIn.toNat
  | .cfgValid => b.cfgValid.toNat
  | .err => b.err.toNat
  | .bps => b.bps.toNat
  | .channels => b.channels.toNat
  | .interval => b.interval.toNat
  | .paceCount => b.paceCount.toNat
  | .word => b.word.toNat
  | .frame => b.frame.toNat

/-- The column "reads" of 30_encoding.md R72. -/
def commandReads : Instr → List Component
  | .nop => []
  | .configure => [.cfgBits, .cfgRate, .cfgBrate, .paceCount]
  | .convert => [.cfgValid, .bps, .dataIn]
  | .pace => [.cfgValid, .paceCount, .interval]
  | .convertPace => [.cfgValid, .bps, .dataIn, .paceCount, .interval]
  | .abort => []
  | .clearErr => []
  | .softReset => []
  | .cvt16 => [.dataIn]
  | .cvt8 => [.dataIn]

/-- The column "writes" of 30_encoding.md R72, `st.err` among them where a failure writes it. -/
def commandWrites : Instr → List Component
  | .nop => []
  | .configure => [.cfgValid, .bps, .channels, .interval, .err]
  | .convert => [.word, .frame, .err]
  | .pace => [.paceCount, .err]
  | .convertPace => [.word, .frame, .paceCount, .err]
  | .abort => [.paceCount]
  | .clearErr => [.err]
  | .softReset => [.cfgBits, .cfgRate, .cfgBrate, .dataIn, .cfgValid, .err, .bps, .channels, .interval, .paceCount,
      .word, .frame]
  | .cvt16 => [.word, .frame]
  | .cvt8 => [.word, .frame]

/-- The `ERR` codes each command can write (60_exceptions.md R187). -/
def commandErrCodes : Instr → List Nat
  | .nop => []
  | .configure => [1, 4]
  | .convert => [2]
  | .pace => [2, 4]
  | .convertPace => [2, 4]
  | .abort => []
  | .clearErr => [0]
  | .softReset => [0]
  | .cvt16 => []
  | .cvt8 => []

/-- A cycle that cannot end a running delay early: no reset, no bus error, no ABORT and no SOFT_RESET (42_pacer.md
R141). -/
def PortCycle.keepsDelay (c : PortCycle) : Bool :=
  c.rstN && !c.illegalAccess && !c.runs .abort && !c.runs .softReset

/-- How many of these cycles carry a tick. -/
def ticksOf (cycles : List PortCycle) : Nat := cycles.countP PortCycle.usTick

end Sys2Proof.Machine
end

