-- ==== Sys2Proof/Certificates/Slice0/Obligations.lean ====
section
/-!
DEFINITION. The statements about ASFC, from the numbered rules of spec/. A statement cites the rules it formalises; where it
rests on a choice of the model its docstring names the log entry.
-/

open Sys2Proof Sys2Proof.Machine

/-! ## Command words -/

/-- 30_encoding.md R73: a word names a command exactly when it is that command's row of the opcode map. -/
def Obligations.DecodeAcceptsExactlyTheOpcodeMap : Prop :=
  ∀ (v : Word) (i : Instr), decode v = .ok i ↔
    (v, i) ∈ [(0x0000_0000#32, Instr.nop), (0x0000_0001#32, Instr.configure), (0x0000_0002#32, Instr.convert),
      (0x0000_0003#32, Instr.pace), (0x0000_0004#32, Instr.convertPace), (0x0000_0005#32, Instr.abort),
      (0x0000_0006#32, Instr.clearErr), (0x0000_0007#32, Instr.softReset), (0x0000_0010#32, Instr.cvt16),
      (0x0000_0011#32, Instr.cvt8)]

/-- 30_encoding.md R70, R73, R75: decode and encode agree in both directions, and the words that decode are those that
the words of R75 leave legal. -/
def Obligations.DecodeAndEncodeAgree : Prop :=
  (∀ i, decode (encode i) = .ok i) ∧ (∀ v i, decode v = .ok i → v = encode i) ∧
    ∀ v, (CommandWord.ofWord v).wellFormed = true ↔ ∃ i, decode v = .ok i

/-- 30_encoding.md R75: a word with `RSV` ≠ 0 or a reserved opcode sets `err` to 3 and changes nothing else. -/
def Obligations.ReservedEncodingsOnlySetErr : Prop :=
  ∀ (v : Word) (s : State),
    (v.toNat / 256 ≠ 0 ∨ (0x08 ≤ v.toNat % 256 ∧ v.toNat % 256 ≤ 0x0F) ∨
      (0x12 ≤ v.toNat % 256 ∧ v.toNat % 256 ≤ 0xFF)) →
    executeCommand v s = .next { s with st := { s.st with err := 3#4 } }

/-- 43_control.md R163: the same for one clock cycle that writes to `CMD` a value that is none of the ten words. -/
def Obligations.WriteOfNoCommandWordFails : Prop :=
  ∀ (v : Word) (s : State) (rest : List PortCycle), s.inputs = PortCycle.command v :: rest →
    v ∉ [0x00#32, 0x01#32, 0x02#32, 0x03#32, 0x04#32, 0x05#32, 0x06#32, 0x07#32, 0x10#32, 0x11#32] →
    step s = .next
      { st := { s.st with err := 3#4 }, inputs := rest, reply := some { rdata := none, err := false } }

/-- A few words of 30_encoding.md R73 and R75, and 43_control.md R163's example, written out. -/
def Obligations.SampleWordsDecode : Prop :=
  decode 0x0000_0001#32 = .ok .configure ∧ decode 0x0000_0004#32 = .ok .convertPace ∧
    decode 0x0000_0007#32 = .ok .softReset ∧ decode 0x0000_0011#32 = .ok .cvt8 ∧
    decode 0x0000_0100#32 = .error .reservedBits ∧ decode 0x8000_0002#32 = .error .reservedBits ∧
    decode 0x0000_0008#32 = .error .reservedOpcode ∧ decode 0x0000_00FF#32 = .error .reservedOpcode

/-- 30_encoding.md R74, 60_exceptions.md R178: a cycle that writes to `CMD` a word which decodes to `i` runs `exec i` on
the state whose cycle is taken and whose access is answered, and then the cycle's tick, if it carries one. -/
def Obligations.StepRunsTheDecodedCommand : Prop :=
  ∀ (s : State) (c : PortCycle) (rest : List PortCycle) (i : Instr), s.inputs = c :: rest →
    c.rstN = true → c.busSel = true → c.busWrite = true → c.busAddr = 0x00#8 → c.busStrb = 0b1111#4 →
    decode c.busWdata = .ok i →
    ∃ t, exec i { s with inputs := rest, reply := some { rdata := none, err := false } } = .next t ∧
      step s = .next (if c.usTick then { t with st := t.st.tick } else t)

/-- The state the host places a command in (log 9): its very next step is `exec` of that command. -/
def Obligations.PlacedCommandRunsNext : Prop :=
  ∀ (s : State) (i : Instr),
    step (s.withFetchWord 32 (encode i).toNat) = exec i { s with reply := some { rdata := none, err := false } }

/-! ## CONFIGURE -/

/-- 40_configure.md R100, R103, R107: the whole of CONFIGURE, with its divisions in the natural numbers. -/
def Obligations.ConfigureFollowsItsRule : Prop :=
  decode 0x0000_0001#32 = .ok .configure ∧
  ∀ s : State,
    (s.st.paceCount ≠ 0#32 → exec .configure s = .next { s with st := { s.st with err := 4#4 } }) ∧
    (∀ b ch : Nat, s.st.paceCount = 0#32 → s.st.cfgRate ≠ 0#32 →
      (s.st.cfgBits = 8#16 ∧ b = 1 ∨ s.st.cfgBits = 16#16 ∧ b = 2) →
      ch = s.st.cfgBrate.toNat / s.st.cfgRate.toNat / b → (ch = 1 ∨ ch = 2) →
      exec .configure s = .next
        { s with
          st := { s.st with
            cfgValid := true, bps := BitVec.ofNat 2 b, channels := BitVec.ofNat 2 ch
            interval := BitVec.ofNat 32 (1000000 / s.st.cfgRate.toNat) } }) ∧
    (s.st.paceCount = 0#32 →
      (s.st.cfgRate = 0#32 ∨ (s.st.cfgBits ≠ 8#16 ∧ s.st.cfgBits ≠ 16#16) ∨
        (s.st.cfgBits = 8#16 ∧ (s.st.cfgBrate.toNat / s.st.cfgRate.toNat = 0 ∨
          3 ≤ s.st.cfgBrate.toNat / s.st.cfgRate.toNat)) ∨
        (s.st.cfgBits = 16#16 ∧ (s.st.cfgBrate.toNat / s.st.cfgRate.toNat / 2 = 0 ∨
          3 ≤ s.st.cfgBrate.toNat / s.st.cfgRate.toNat / 2))) →
      exec .configure s = .next
        { s with
          st := { s.st with
            cfgValid := false, bps := 0#2, channels := 0#2, interval := 0#32, err := 1#4 } })

/-- 40_configure.md R106: the nested divisions are the single one, and CONFIGURE's channel count is that number. -/
def Obligations.ChannelCountIsTheSingleDivision : Prop :=
  ∀ (brate rate : Word) (b : BitVec 2), rate ≠ 0#32 → (b = 1#2 ∨ b = 2#2) →
    (channelCount brate rate b).toNat = brate.toNat / rate.toNat / b.toNat ∧
    brate.toNat / rate.toNat / b.toNat = brate.toNat / (rate.toNat * b.toNat)

/-- 40_configure.md R104: the interval, its range, and the rule's examples. -/
def Obligations.IntervalIsTheTruncatedQuotient : Prop :=
  (∀ rate : Word, rate ≠ 0#32 →
    (sampleInterval rate).toNat = 1000000 / rate.toNat ∧ (sampleInterval rate).toNat ≤ 1000000) ∧
  sampleInterval 8000#32 = 125#32 ∧ sampleInterval 11025#32 = 90#32 ∧ sampleInterval 22050#32 = 45#32 ∧
  sampleInterval 44100#32 = 22#32 ∧ sampleInterval 48000#32 = 20#32 ∧ sampleInterval 1#32 = 1000000#32

/-- 40_configure.md R108: the table of corner cases, row by row (bits, rate, byte rate, and what is derived, none for a
reject), with its first row for every byte rate and its last row for every staged value. -/
def Obligations.ConfigureCornerCases : Prop :=
  (∀ s : State, s.st.paceCount = 0#32 → s.st.cfgBits = 16#16 → s.st.cfgRate = 0#32 →
    exec .configure s = .next { s with st := s.st.reject }) ∧
  (∀ row ∈ [
      (24#16, 44100#32, 264600#32, none), (12#16, 8000#32, 16000#32, none), (0#16, 8000#32, 8000#32, none),
      (0xFFFF#16, 8000#32, 8000#32, none), (16#16, 44100#32, 264600#32, none), (8#16, 44100#32, 132300#32, none),
      (16#16, 8000#32, 0#32, none), (16#16, 8000#32, 15999#32, none),
      (16#16, 8000#32, 16000#32, some (2#2, 1#2, 125#32)), (16#16, 8000#32, 31999#32, some (2#2, 1#2, 125#32)),
      (16#16, 8000#32, 32000#32, some (2#2, 2#2, 125#32)), (16#16, 8000#32, 47999#32, some (2#2, 2#2, 125#32)),
      (16#16, 8000#32, 48000#32, none), (8#16, 44100#32, 88200#32, some (1#2, 2#2, 22#32)),
      (8#16, 1#32, 2#32, some (1#2, 2#2, 1000000#32)), (16#16, 1000000#32, 2000000#32, some (2#2, 1#2, 1#32)),
      (16#16, 1000001#32, 2000002#32, some (2#2, 1#2, 0#32)),
      (8#16, 0xFFFFFFFF#32, 0xFFFFFFFF#32, some (1#2, 1#2, 0#32)), (8#16, 0xFFFFFFFF#32, 1#32, none)],
    ∀ s : State, s.st.paceCount = 0#32 → s.st.cfgBits = row.1 → s.st.cfgRate = row.2.1 → s.st.cfgBrate = row.2.2.1 →
      exec .configure s = .next
        { s with
          st := match row.2.2.2 with
            | some (bps, channels, interval) => s.st.accept bps channels interval
            | none => s.st.reject }) ∧
  (∀ s : State, s.st.paceCount ≠ 0#32 → exec .configure s = .next { s with st := { s.st with err := 4#4 } })

/-- 40_configure.md R109: a rate above 1 MHz is accepted with interval 0, and PACE then changes nothing: the delay is
empty. -/
def Obligations.RatesAboveOneMegahertzPaceAtOnce : Prop :=
  ∀ s : State, s.st.paceCount = 0#32 → 1000000 < s.st.cfgRate.toNat →
    (s.st.cfgBits = 8#16 ∧ s.st.cfgBrate.toNat / s.st.cfgRate.toNat ∈ [1, 2] ∨
      s.st.cfgBits = 16#16 ∧ s.st.cfgBrate.toNat / s.st.cfgRate.toNat / 2 ∈ [1, 2]) →
    ∃ t, exec .configure s = .next t ∧ t.st.cfgValid = true ∧ t.st.interval = 0#32 ∧ t.st.busy = false ∧
      exec .pace t = .next t

/-- 40_configure.md R105, 10_state.md R36: an unconfigured block stays unconfigured until a CONFIGURE succeeds, and until
then the three commands that need a configuration fail with code 2. -/
def Obligations.UnconfiguredUntilConfigureSucceeds : Prop :=
  (∀ s t : State, s.st.cfgValid = false → step s = .next t → t.st.cfgValid = true →
    ∃ c rest, s.inputs = c :: rest ∧ c.runs .configure = true ∧ s.st.configureSucceeds = true) ∧
  ∀ (s : State) (i : Instr), s.st.cfgValid = false → i ∈ [Instr.convert, Instr.pace, Instr.convertPace] →
    exec i s = .next { s with st := { s.st with err := 2#4 } }

/-! ## Conversion -/

/-- 41_convert.md R121: `conv16` is the signed sample plus 0x8000, without its low 4 bits. -/
def Obligations.ConvSixteenIsTheOffsetSample : Prop :=
  ∀ h : Half, ((conv16 h).toNat : Int) = (h.toInt + 0x8000) / 16

/-- 41_convert.md R123. -/
def Obligations.ConvSixteenIsTheSignFlip : Prop :=
  ∀ h : Half, conv16 h = (h ^^^ 0x8000#16).extractLsb' 4 12

/-- 41_convert.md R124: (a) every code comes from exactly 16 samples, (b) larger samples have no smaller code, (c) the key
values, (d) the 16 samples 0x0000 to 0x000F. -/
def Obligations.ConvSixteenProperties : Prop :=
  (∀ code : Code, ∃ f : BitVec 4 → Half, Function.Injective f ∧ ∀ h, conv16 h = code ↔ ∃ n, f n = h) ∧
  (∀ h1 h2 : Half, h1.toInt ≤ h2.toInt → (conv16 h1).toNat ≤ (conv16 h2).toNat) ∧
  (conv16 0x8000#16 = 0x000#12 ∧ conv16 0xFFFF#16 = 0x7FF#12 ∧ conv16 0x0000#16 = 0x800#12 ∧
    conv16 0x7FFF#16 = 0xFFF#12) ∧
  (∀ h : Half, h.toNat ≤ 0x000F → conv16 h = 0x800#12)

/-- 41_convert.md R122: `conv8` appends four zero bits, so it stays in 0x000 to 0xFF0 in steps of 16. -/
def Obligations.ConvEightAppendsFourZeros : Prop :=
  ∀ b : Byte, conv8 b = b ++ 0b0000#4 ∧ (conv8 b).toNat = 16 * b.toNat ∧ (conv8 b).toNat ≤ 0xFF0

/-- 41_convert.md R129: the two paths agree on the common unsigned reading. -/
def Obligations.TheTwoPathsAgree : Prop :=
  (∀ b : Byte, conv8 b = conv16 ((b - 128#8) ++ 0x00#8)) ∧ conv8 0x80#8 = 0x800#12 ∧ conv16 0x0000#16 = 0x800#12

/-- 41_convert.md R125, 30_encoding.md R77, R78: the addition never carries, for any prefix, and assembling a code writes
`WORD` and `FRAME` in their layouts and nothing else. -/
def Obligations.AssembleWritesPrefixAndCode : Prop :=
  (∀ (p : BitVec 4) (code : Code), dacWord p code = p ++ code ∧
    dacWord p code = (p.setWidth 16 <<< 12) ||| code.setWidth 16) ∧
  ∀ (b : Block) (code : Code), b.assemble code =
    { b with
      word := Config.chselPrefix ++ code
      frame := code.extractLsb' 0 8 ++ Config.chselPrefix ++ code.extractLsb' 8 4 }

/-- 41_convert.md R130: two swaps are none, so `WORD` is the swapped `FRAME` wherever `FRAME` is the swapped `WORD`. -/
def Obligations.SwapTwiceIsIdentity : Prop :=
  (∀ v : Half, swap16 (swap16 v) = v) ∧ ∀ b : Block, b.frame = swap16 b.word → b.word = swap16 b.frame

/-- 30_encoding.md R79: the host sends the prefix nibble and the high nibble of the code first, in the order that the spec
takes from general knowledge and the model presumes (log 21). -/
def Obligations.WireBytesStartWithThePrefix : Prop :=
  ∀ (b : Block) (code : Code), wireBytes (b.assemble code).frame =
    [Config.chselPrefix ++ code.extractLsb' 8 4, code.extractLsb' 0 8]

/-- 30_encoding.md R76, 41_convert.md R120: in a packed stride the first channel's sample is in the low bytes, low byte
first, whatever the host writes in the lanes past the stride (log 22). -/
def Obligations.PackedStrideHoldsFirstChannelLow : Prop :=
  ∀ (b : Block) (fill : Word) (l lo hi r rlo rhi : Byte),
    (b.dataIn = packStride fill [l] → b.sample8 = l) ∧ (b.dataIn = packStride fill [l, r] → b.sample8 = l) ∧
    (b.dataIn = packStride fill [lo, hi] → b.sample16 = hi ++ lo) ∧
    (b.dataIn = packStride fill [lo, hi, rlo, rhi] → b.sample16 = hi ++ lo)

/-- 41_convert.md R126: CONVERT, both depths and the failure, with the codes written from the sample's bits. -/
def Obligations.ConvertFollowsItsRule : Prop :=
  decode 0x0000_0002#32 = .ok .convert ∧
  ∀ s : State,
    (s.st.cfgValid = false → exec .convert s = .next { s with st := { s.st with err := 2#4 } }) ∧
    (s.st.cfgValid = true → s.st.bps = 2#2 →
      exec .convert s = .next
        { s with
          st := { s.st with
            word := Config.chselPrefix ++ (s.st.dataIn.extractLsb' 0 16 ^^^ 0x8000#16).extractLsb' 4 12
            frame := swap16 (Config.chselPrefix ++ (s.st.dataIn.extractLsb' 0 16 ^^^ 0x8000#16).extractLsb' 4 12) } }) ∧
    (s.st.cfgValid = true → s.st.bps ≠ 2#2 →
      exec .convert s = .next
        { s with
          st := { s.st with
            word := Config.chselPrefix ++ (s.st.dataIn.extractLsb' 0 8 ++ 0#4)
            frame := swap16 (Config.chselPrefix ++ (s.st.dataIn.extractLsb' 0 8 ++ 0#4)) } })

/-- 41_convert.md R127: CVT16 in every state, and its agreement with CONVERT. -/
def Obligations.CvtSixteenFollowsItsRule : Prop :=
  decode 0x0000_0010#32 = .ok .cvt16 ∧
  ∀ s : State,
    exec .cvt16 s = .next
      { s with
        st := { s.st with
          word := Config.chselPrefix ++ (s.st.dataIn.extractLsb' 0 16 ^^^ 0x8000#16).extractLsb' 4 12
          frame := swap16 (Config.chselPrefix ++ (s.st.dataIn.extractLsb' 0 16 ^^^ 0x8000#16).extractLsb' 4 12) } } ∧
    (s.st.cfgValid = true → s.st.bps = 2#2 → exec .cvt16 s = exec .convert s)

/-- 41_convert.md R128: CVT8 in every state, and its agreement with CONVERT. -/
def Obligations.CvtEightFollowsItsRule : Prop :=
  decode 0x0000_0011#32 = .ok .cvt8 ∧
  ∀ s : State,
    exec .cvt8 s = .next
      { s with
        st := { s.st with
          word := Config.chselPrefix ++ (s.st.dataIn.extractLsb' 0 8 ++ 0#4)
          frame := swap16 (Config.chselPrefix ++ (s.st.dataIn.extractLsb' 0 8 ++ 0#4)) } } ∧
    (s.st.cfgValid = true → s.st.bps = 1#2 → exec .cvt8 s = exec .convert s)

/-- 41_convert.md R120, R126, 42_pacer.md R143: two blocks that differ only in the bytes of `DATA_IN` outside the first
channel's sample hold the same word and frame after a conversion of the configured depth. -/
def Obligations.SecondChannelIsNeverTransmitted : Prop :=
  ∀ (s : State) (x : Word) (t u : State) (i : Instr), i ∈ [Instr.convert, Instr.convertPace] →
    (s.st.bps = 2#2 ∧ x.extractLsb' 0 16 = s.st.dataIn.extractLsb' 0 16 ∨
      s.st.bps = 1#2 ∧ x.extractLsb' 0 8 = s.st.dataIn.extractLsb' 0 8) →
    exec i s = .next t → exec i { s with st := { s.st with dataIn := x } } = .next u →
    u.st = { t.st with dataIn := x }

/-! ## The pacer -/

/-- 42_pacer.md R140: PACE, its two failures, and `BUSY` afterwards. -/
def Obligations.PaceFollowsItsRule : Prop :=
  decode 0x0000_0003#32 = .ok .pace ∧
  ∀ s : State,
    (s.st.cfgValid = false → exec .pace s = .next { s with st := { s.st with err := 2#4 } }) ∧
    (s.st.cfgValid = true → s.st.paceCount ≠ 0#32 → exec .pace s = .next { s with st := { s.st with err := 4#4 } }) ∧
    (s.st.cfgValid = true → s.st.paceCount = 0#32 →
      exec .pace s = .next { s with st := { s.st with paceCount := s.st.interval } } ∧
      (({ s.st with paceCount := s.st.interval } : Block).view 0x04#8).getLsbD 1 = decide (s.st.interval ≠ 0#32))

/-- 42_pacer.md R143: CONVERT_PACE, its two failures in their order, and both depths. -/
def Obligations.ConvertPaceFollowsItsRule : Prop :=
  decode 0x0000_0004#32 = .ok .convertPace ∧
  ∀ s : State,
    (s.st.cfgValid = false → exec .convertPace s = .next { s with st := { s.st with err := 2#4 } }) ∧
    (s.st.cfgValid = true → s.st.paceCount ≠ 0#32 →
      exec .convertPace s = .next { s with st := { s.st with err := 4#4 } }) ∧
    (s.st.cfgValid = true → s.st.paceCount = 0#32 → s.st.bps = 2#2 →
      exec .convertPace s = .next
        { s with
          st := { s.st with
            word := Config.chselPrefix ++ (s.st.dataIn.extractLsb' 0 16 ^^^ 0x8000#16).extractLsb' 4 12
            frame := swap16 (Config.chselPrefix ++ (s.st.dataIn.extractLsb' 0 16 ^^^ 0x8000#16).extractLsb' 4 12)
            paceCount := s.st.interval } }) ∧
    (s.st.cfgValid = true → s.st.paceCount = 0#32 → s.st.bps ≠ 2#2 →
      exec .convertPace s = .next
        { s with
          st := { s.st with
            word := Config.chselPrefix ++ (s.st.dataIn.extractLsb' 0 8 ++ 0#4)
            frame := swap16 (Config.chselPrefix ++ (s.st.dataIn.extractLsb' 0 8 ++ 0#4))
            paceCount := s.st.interval } })

/-- 42_pacer.md R144, R143: where the pacer is idle, CONVERT and then PACE leave what CONVERT_PACE leaves. -/
def Obligations.ConvertThenPaceIsConvertPace : Prop :=
  ∀ s : State, s.st.paceCount = 0#32 →
    ∃ t u, exec .convert s = .next t ∧ exec .pace t = .next u ∧ exec .convertPace s = .next u

/-- 42_pacer.md R146: ABORT, in every state, and a PACE right after it succeeds in a configured block. -/
def Obligations.AbortFollowsItsRule : Prop :=
  decode 0x0000_0005#32 = .ok .abort ∧
  ∀ s : State, exec .abort s = .next { s with st := { s.st with paceCount := 0#32 } } ∧
    (s.st.paceCount = 0#32 → exec .abort s = .next s) ∧
    (s.st.cfgValid = true →
      exec .pace { s with st := { s.st with paceCount := 0#32 } } =
        .next { s with st := { s.st with paceCount := s.st.interval } })

/-- 42_pacer.md R148: a cycle with a tick leaves what the same cycle without the tick leaves, but for the counter, which is
one lower and never below 0; a cycle with only a tick changes no other component. -/
def Obligations.TickStepsTheCounterDown : Prop :=
  (∀ (s : State) (c : PortCycle) (rest : List PortCycle), s.inputs = c :: rest → c.rstN = true → c.usTick = true →
    c.illegalAccess = false →
    ∃ (u : State) (n : Word), step { s with inputs := { c with usTick := false } :: rest } = .next u ∧
      n.toNat = u.st.paceCount.toNat - 1 ∧ step s = .next { u with st := { u.st with paceCount := n } }) ∧
  ∀ (s : State) (rest : List PortCycle), s.inputs = PortCycle.tick :: rest →
    ∃ n : Word, n.toNat = s.st.paceCount.toNat - 1 ∧
      step s = .next { st := { s.st with paceCount := n }, inputs := rest, reply := none }

/-- 42_pacer.md R141: after a successful PACE or CONVERT_PACE with interval N, along any cycles without reset, bus error,
ABORT or SOFT_RESET, the counter is N less the ticks so far until the Nth tick, is 0 right after the Nth tick (at once
where N is 0), and leaves 0 again only by a PACE or CONVERT_PACE that succeeds. -/
def Obligations.DelayLastsExactlyItsTicks : Prop :=
  (∀ (s p : State) (i : Instr), i ∈ [Instr.pace, Instr.convertPace] → s.st.cfgValid = true → s.st.paceCount = 0#32 →
    exec i s = .next p →
    (s.st.interval = 0#32 → p.st.busy = false) ∧
    (∀ cycles : List PortCycle, (∀ c ∈ cycles, c.keepsDelay = true) → ticksOf cycles < s.st.interval.toNat →
      ∃ t, Sys2Proof.core.run cycles.length { p with inputs := cycles } = .next t ∧
        t.st.busy = true ∧ t.st.paceCount.toNat = s.st.interval.toNat - ticksOf cycles) ∧
    (∀ (cycles : List PortCycle) (last : PortCycle), (∀ c ∈ cycles ++ [last], c.keepsDelay = true) →
      ticksOf cycles + 1 = s.st.interval.toNat → last.usTick = true →
      ∃ t, Sys2Proof.core.run (cycles.length + 1) { p with inputs := cycles ++ [last] } = .next t ∧
        t.st.busy = false)) ∧
  ∀ s t : State, s.st.busy = false → step s = .next t → t.st.busy = true →
    ∃ c rest, s.inputs = c :: rest ∧ (c.runs .pace = true ∨ c.runs .convertPace = true) ∧ s.st.cfgValid = true

/-! ## Control -/

/-- 43_control.md R160: NOP changes no state in every state. -/
def Obligations.NopChangesNothing : Prop :=
  decode 0x0000_0000#32 = .ok .nop ∧ ∀ s : State, exec .nop s = .next s

/-- 43_control.md R161: CLEAR_ERR writes `err` and nothing else. -/
def Obligations.ClearErrOnlyClearsErr : Prop :=
  decode 0x0000_0006#32 = .ok .clearErr ∧
  ∀ s : State, exec .clearErr s = .next { s with st := { s.st with err := 0#4 } }

/-- 43_control.md R162, 10_state.md R39: SOFT_RESET sets every component to its reset value, in every state, and a reset
cycle has the same effect. -/
def Obligations.SoftResetSetsEveryComponent : Prop :=
  decode 0x0000_0007#32 = .ok .softReset ∧
  ∀ s : State,
    exec .softReset s = .next
      { s with
        st :=
          { cfgBits := 0x0000#16, cfgRate := 0x0000_0000#32, cfgBrate := 0x0000_0000#32, dataIn := 0x0000_0000#32
            cfgValid := false, err := 0#4, bps := 0#2, channels := 0#2, interval := 0x0000_0000#32
            paceCount := 0x0000_0000#32, word := 0x0000#16, frame := 0x0000#16 } } ∧
    ∀ t, exec .softReset s = .next t →
      (t.st.view 0x20#8).toNat = Config.chselPrefix.toNat * 4096 ∧
      step { s with inputs := PortCycle.reset :: s.inputs } = .next { t with reply := none }

/-! ## What each command reads, writes and reports -/

/-- 30_encoding.md R72: a command changes only the components its row writes, and what it writes depends only on the
components its row reads: run in two states that agree on those, it leaves each component equal in both or unchanged in
both. -/
def Obligations.CommandsKeepToTheirOperands : Prop :=
  ∀ (i : Instr) (s u : State), ∃ s' u' : State, exec i s = .next s' ∧ exec i u = .next u' ∧
    s'.inputs = s.inputs ∧ s'.reply = s.reply ∧
    (∀ k, k ∉ commandWrites i → s'.st.get k = s.st.get k) ∧
    ((∀ k ∈ commandReads i, s.st.get k = u.st.get k) →
      ∀ k, s'.st.get k = u'.st.get k ∨ (s'.st.get k = s.st.get k ∧ u'.st.get k = u.st.get k))

/-- 60_exceptions.md R187: the codes each command can write to `ERR`, each of which it does write in some state; an
illegal word writes 3. -/
def Obligations.CommandsReportOnlyTheirCodes : Prop :=
  (∀ (i : Instr) (s t : State), exec i s = .next t →
    t.st.err = s.st.err ∨ t.st.err.toNat ∈ commandErrCodes i) ∧
  (∀ (i : Instr) (e : Nat), e ∈ commandErrCodes i →
    ∃ s t : State, exec i s = .next t ∧ s.st.err.toNat ≠ e ∧ t.st.err.toNat = e) ∧
  ∀ (v : Word) (s t : State), (∀ i, decode v ≠ .ok i) → executeCommand v s = .next t → t.st.err.toNat = 3

/-- 60_exceptions.md R170: an error stays until CLEAR_ERR, SOFT_RESET or reset clears it. -/
def Obligations.ErrorsStayUntilCleared : Prop :=
  ∀ s t : State, step s = .next t → s.st.err ≠ 0#4 → t.st.err = 0#4 →
    ∃ c rest, s.inputs = c :: rest ∧
      (c.rstN = false ∨ c.runs .clearErr = true ∨ c.runs .softReset = true)

/-- 60_exceptions.md R172: a command other than CONFIGURE that writes a failure code (2, 3 or 4) where another stood
changes nothing else; CONFIGURE does so where the pacer runs. -/
def Obligations.FailuresArePrecise : Prop :=
  ∀ (v : Word) (s t : State), executeCommand v s = .next t → t.st.err ≠ s.st.err → t.st.err.toNat ∈ [2, 3, 4] →
    t = { s with st := { s.st with err := t.st.err } }

/-! ## The register window and the bus -/

/-- 10_state.md R27: the fields of `STATUS` at their places. -/
def Obligations.StatusShowsItsFields : Prop :=
  ∀ b : Block, (b.view 0x04#8).toNat =
    b.cfgValid.toNat + 2 * (if b.paceCount = 0#32 then 0 else 1) + 16 * b.err.toNat

/-- 10_state.md R28, R34: the fields of `FORMAT` at their places, in every state with the channel counts and sample sizes
that 10_state.md R38 allows (a state no run reaches may have a stride that does not fit its field: log 11). -/
def Obligations.FormatShowsItsFields : Prop :=
  ∀ b : Block, b.bps.toNat ≤ 2 → b.channels.toNat ≤ 2 →
    (b.view 0x20#8).toNat = b.bps.toNat + 16 * b.channels.toNat + 256 * (b.channels.toNat * b.bps.toNat) +
      4096 * Config.chselPrefix.toNat

/-- 10_state.md R22 to R26, R29 to R33: what the other offsets read as; `CMD` and the reserved offsets read 0. -/
def Obligations.OtherOffsetsReadTheirComponents : Prop :=
  ∀ b : Block,
    b.view 0x08#8 = b.cfgBits.setWidth 32 ∧ b.view 0x0C#8 = b.cfgRate ∧ b.view 0x10#8 = b.cfgBrate ∧
    b.view 0x14#8 = b.dataIn ∧ b.view 0x18#8 = b.frame.setWidth 32 ∧ b.view 0x1C#8 = b.interval ∧
    b.view 0x24#8 = b.paceCount ∧ b.view 0x28#8 = b.word.setWidth 32 ∧ b.view 0x00#8 = 0#32 ∧
    ∀ off : Offset, 0x2C ≤ off.toNat → b.view off = 0#32

/-- 10_state.md R21: every component can be read through a register: blocks that read alike at every aligned offset are
equal. -/
def Obligations.EveryComponentIsReadable : Prop :=
  ∀ a b : Block, (∀ off : Offset, off.toNat % 4 = 0 → a.view off = b.view off) → a = b

/-- 20_memory.md R55, 60_exceptions.md R175: an access is illegal when it is misaligned or a write without all strobes; it
faults, with `bus_err` = 1, a read's data 0 and no change of state; a legal access has `bus_err` = 0. -/
def Obligations.IllegalAccessIsABusError : Prop :=
  ∀ (s : State) (c : PortCycle) (rest : List PortCycle), s.inputs = c :: rest → c.rstN = true → c.busSel = true →
    ((c.busAddr.toNat % 4 ≠ 0 ∨ c.busWrite = true ∧ c.busStrb ≠ 0b1111#4) →
      step s = .fault (.busError c.busAddr) ∧ accessEffect c s = .next s ∧
      busReply s.st c = some { rdata := if c.busWrite then none else some 0#32, err := true }) ∧
    (¬(c.busAddr.toNat % 4 ≠ 0 ∨ c.busWrite = true ∧ c.busStrb ≠ 0b1111#4) →
      ∃ t d, step s = .next t ∧ t.reply = some { rdata := d, err := false })

/-- 20_memory.md R56: a legal read, whatever its strobes (R55), answers with the register's current value and changes no
state of its own; where its cycle carries a tick, the read sees the state before it (60_exceptions.md R178) and the block is
then left as 42_pacer.md R148 steps it. -/
def Obligations.ReadAnswersAndChangesNothing : Prop :=
  ∀ (s : State) (c : PortCycle) (rest : List PortCycle), s.inputs = c :: rest → c.rstN = true → c.busSel = true →
    c.busWrite = false → c.busAddr.toNat % 4 = 0 →
    step s = .next
      { st := if c.usTick then s.st.tick else s.st, inputs := rest
        reply := some { rdata := some (s.st.view c.busAddr), err := false } }

/-- 20_memory.md R57: a write (in a cycle without a tick) is a bus error where it is misaligned or lacks a strobe;
otherwise `CMD` executes, the four RW registers store, and every other offset ignores the write without an error. -/
def Obligations.WriteGoesByOffset : Prop :=
  ∀ (s q : State) (c : PortCycle) (rest : List PortCycle), s.inputs = c :: rest → c.rstN = true → c.busSel = true →
    c.busWrite = true → c.usTick = false →
    q = { s with inputs := rest, reply := some { rdata := none, err := false } } →
    (c.busAddr.toNat % 4 ≠ 0 ∨ c.busStrb ≠ 0b1111#4 → step s = .fault (.busError c.busAddr)) ∧
    (c.busAddr.toNat % 4 = 0 → c.busStrb = 0b1111#4 →
      (c.busAddr = 0x00#8 → step s = executeCommand c.busWdata q) ∧
      (c.busAddr = 0x08#8 → step s = .next { q with st := { s.st with cfgBits := c.busWdata.extractLsb' 0 16 } }) ∧
      (c.busAddr = 0x0C#8 → step s = .next { q with st := { s.st with cfgRate := c.busWdata } }) ∧
      (c.busAddr = 0x10#8 → step s = .next { q with st := { s.st with cfgBrate := c.busWdata } }) ∧
      (c.busAddr = 0x14#8 → step s = .next { q with st := { s.st with dataIn := c.busWdata } }) ∧
      (c.busAddr ∉ [0x00#8, 0x08#8, 0x0C#8, 0x10#8, 0x14#8] → step s = .next q))

/-- 10_state.md R23 to R26, 20_memory.md R59: a RW register reads back what was written to it, and writing the same value
again changes nothing. -/
def Obligations.StoredValuesReadBack : Prop :=
  ∀ (b : Block) (v : Word),
    (∀ off ∈ [0x0C#8, 0x10#8, 0x14#8], (b.store off v).view off = v) ∧
    ((b.store 0x08#8 v).view 0x08#8).toNat = v.toNat % 65536 ∧
    ∀ off : Offset, (b.store off v).store off v = b.store off v

/-- 60_exceptions.md R178: reset beats an access and a tick in the same cycle; otherwise an access and a tick in one cycle
leave what the access's own cycle and then the tick's own cycle leave. -/
def Obligations.SameCycleIsAccessThenTick : Prop :=
  ∀ (s : State) (c : PortCycle) (rest : List PortCycle), s.inputs = c :: rest →
    (c.rstN = false → ∃ t, step s = .next t ∧ t.st = Block.reset) ∧
    (c.rstN = true → c.usTick = true → c.illegalAccess = false →
      ∃ t u, step s = .next t ∧
        Sys2Proof.core.run 2 { s with inputs := { c with usTick := false } :: PortCycle.tick :: rest } = .next u ∧
        t.st = u.st ∧ t.inputs = u.inputs)

/-- 70_reset_and_hazards.md R190, R192, 10_state.md R39: a cycle with `rst_n` = 0, from any state (the unspecified one of
R191 among them) and whatever access and tick it carries, leaves the reset values, which are those of `State.reset`; a read
in it returns 0 without error, and the registers then read as R192 says. -/
def Obligations.ResetCycleSetsEveryComponent : Prop :=
  (∀ (s : State) (c : PortCycle) (rest : List PortCycle), s.inputs = c :: rest → c.rstN = false →
    ∃ r, (c.busSel = true → c.busWrite = false → r = some { rdata := some 0#32, err := false }) ∧
      step s = .next
        { st :=
            { cfgBits := 0x0000#16, cfgRate := 0x0000_0000#32, cfgBrate := 0x0000_0000#32, dataIn := 0x0000_0000#32
              cfgValid := false, err := 0#4, bps := 0#2, channels := 0#2, interval := 0x0000_0000#32
              paceCount := 0x0000_0000#32, word := 0x0000#16, frame := 0x0000#16 }
          inputs := rest, reply := r } ∧
      ∀ t, step s = .next t → t.st = State.reset.st) ∧
  State.reset.st.view 0x04#8 = 0#32 ∧ State.reset.st.view 0x18#8 = 0#32 ∧ State.reset.st.view 0x28#8 = 0#32 ∧
  State.reset.st.view 0x20#8 = Config.chselPrefix.setWidth 32 <<< 12

/-- 60_exceptions.md R175: a step stops for an illegal access out of reset and for nothing else; with R173, no command stops
ASFC. That an illegal access in a cycle with `rst_n` = 0 is no fault is the model's reading (log 7) of 60_exceptions.md R178
(a) and 70_reset_and_hazards.md R190, which have the access ignored, against 20_memory.md R55. -/
def Obligations.OnlyIllegalAccessesStopAStep : Prop :=
  ∀ s : State,
    (∀ f, step s = .fault f ↔
      ∃ c rest, s.inputs = c :: rest ∧ c.illegalAccess = true ∧ f = .busError c.busAddr) ∧
    ∀ r, step s ≠ .refused r

/-- 60_exceptions.md R173, R175: a host that presents no illegal access out of reset (log 7) is never stopped, however long
the run. -/
def Obligations.LegalHostsRunForEver : Prop :=
  ∀ (n : Nat) (s : State), (∀ c ∈ s.inputs, c.illegalAccess = false) → SafeRun n s

/-- 20_memory.md R50: `MemRead` and `MemWrite` at `BASE + off` present the access at `off`; an address outside the window
does not select ASFC (the host's decode of `BASE` as log 2 takes it). -/
def Obligations.HostAccessesReachTheirOffset : Prop :=
  (∀ (off : Offset) (v : Word), PortCycle.memRead (Config.base + off.toNat) = PortCycle.read off ∧
    PortCycle.memWrite (Config.base + off.toNat) v = PortCycle.write off v) ∧
  ∀ (addr : Nat) (v : Word), (addr < Config.base ∨ Config.base + 256 ≤ addr) →
    (PortCycle.memRead addr).busSel = false ∧ (PortCycle.memWrite addr v).busSel = false

/-- The model's own choice (log 4): a cycle in which no agent acts, presented or not, changes nothing of ASFC. -/
def Obligations.IdleCyclesChangeNothing : Prop :=
  ∀ s : State, (s.inputs = [] → step s = .next { s with reply := none }) ∧
    ∀ rest, s.inputs = PortCycle.idle :: rest → step s = .next { s with inputs := rest, reply := none }

/-- 70_reset_and_hazards.md R197, 10_state.md R36: what CONFIGURE derived (`CFG_VALID`, `FORMAT`'s fields, `INTERVAL`)
keeps its values, whatever is written to the staged registers, until a CONFIGURE, a SOFT_RESET or a reset. -/
def Obligations.DerivedValuesWaitForConfigure : Prop :=
  ∀ s t : State, step s = .next t →
    (t.st.cfgValid = s.st.cfgValid ∧ t.st.bps = s.st.bps ∧ t.st.channels = s.st.channels ∧
      t.st.interval = s.st.interval) ∨
    ∃ c rest, s.inputs = c :: rest ∧ (c.rstN = false ∨ c.runs .configure = true ∨ c.runs .softReset = true)

/-! ## The invariants of 10_state.md R38 -/

/-- 10_state.md R38, R39: the reset state meets all six items, whatever cycles follow. -/
def Obligations.ResetMeetsTheInvariants : Prop :=
  ∀ rate : Word, Invariants State.reset.st rate

/-- 10_state.md R38: every step keeps all six items, from every state that meets them, with the sample rate that the last
successful CONFIGURE latched. -/
def Obligations.EveryStepKeepsTheInvariants : Prop :=
  ∀ (s t : State) (rate : Word), Invariants s.st rate → step s = .next t → Invariants t.st (latchedRate s rate)

/-- 10_state.md R38: every state reachable from reset meets all six items, along any presented cycles. -/
def Obligations.ReachableStatesMeetTheInvariants : Prop :=
  ∀ (n : Nat) (cycles : List PortCycle) (t : State) (rate : Word),
    Sys2Proof.core.run n { State.reset with inputs := cycles } = .next t →
    Invariants t.st (latchedAfter n { State.reset with inputs := cycles } rate)

/-! ## The host's side -/

/-- 30_encoding.md R80, R81: `rd hN, REG` loads the register's value and changes nothing of ASFC; `wrh`, `wr` and `cmd`
write at the register's offset. How a host program runs is the model's choice (log 15), not the rules': a host is a `HostRun`
at a line, each form is one host step that goes on to the next line, and its transaction is put in front of the presented
cycles. -/
def Obligations.HostFormsAreTheirTransactions : Prop :=
  ∀ (y : HostRun) (r : RegName) (n : Fin 8),
    y.perform (.rd n r) = .next
      { dev := { y.dev with reply := some { rdata := some (y.dev.st.view r.off), err := false } }
        h := y.h.set n (y.dev.st.view r.off), line := y.line + 1 } ∧
    (∀ (v : Word) (d : State),
      step { y.dev with inputs := PortCycle.write r.off v :: y.dev.inputs } = .next d →
      y.perform (.wr r v) = .next { y with dev := d, line := y.line + 1 } ∧
      (y.h[n] = v → y.perform (.wrh r n) = .next { y with dev := d, line := y.line + 1 })) ∧
    ∀ (i : Instr) (d : State),
      exec i { y.dev with reply := some { rdata := none, err := false } } = .next d →
      y.perform (HostInstr.cmd i) = .next { y with dev := d, line := y.line + 1 }

/-- 30_encoding.md R81, 70_reset_and_hazards.md R195: one turn of `wait_idle`, without a tick between its lines, leaves
the loop exactly when `BUSY` = 0 and goes back to its first line otherwise; it clobbers h7 and changes nothing of ASFC. One
host step a line, a label as a line index and the place of `wait_idle` in a program are the model's choice (log 15). -/
def Obligations.WaitIdleLoopsWhileBusy : Prop :=
  ∀ (before behind : List HostInstr) (y : HostRun), y.line = before.length →
    ∃ y1 y2 y3 : HostRun,
      y.hostStep (before ++ waitIdle before.length ++ behind) = .next y1 ∧
      y1.hostStep (before ++ waitIdle before.length ++ behind) = .next y2 ∧
      y2.hostStep (before ++ waitIdle before.length ++ behind) = .next y3 ∧
      y3.line = (if y.dev.st.paceCount = 0#32 then before.length + 3 else before.length) ∧
      y3.dev.st = y.dev.st ∧ y3.dev.inputs = y.dev.inputs ∧ ∀ k : Fin 8, k ≠ 7 → y3.h[k] = y.h[k]

/-- 70_reset_and_hazards.md R200, 90_conflicts.md C4: the strides a host converts are the consecutive whole ones, and the
trailing partial one is dropped. -/
def Obligations.PartialStridesAreDropped : Prop :=
  ∀ (stride : Nat) (bytes : List Byte), 0 < stride →
    (wholeStrides stride bytes).flatten = bytes.take (bytes.length - bytes.length % stride) ∧
    ∀ p ∈ wholeStrides stride bytes, p.length = stride
end

