-- ==== Sys2Proof/Laws/State.lean ====
section
/-!
SUPPORT. One lemma per component per update of ASFC's state, so that no later proof unfolds a record update. Each is true
by unfolding.
-/

namespace Sys2Proof.Machine

variable (b : Block)

/-! `Block.fail` -/

@[simp] theorem Block.fail_cfgBits (e : ErrCode) : (b.fail e).cfgBits = b.cfgBits := rfl
@[simp] theorem Block.fail_cfgRate (e : ErrCode) : (b.fail e).cfgRate = b.cfgRate := rfl
@[simp] theorem Block.fail_cfgBrate (e : ErrCode) : (b.fail e).cfgBrate = b.cfgBrate := rfl
@[simp] theorem Block.fail_dataIn (e : ErrCode) : (b.fail e).dataIn = b.dataIn := rfl
@[simp] theorem Block.fail_cfgValid (e : ErrCode) : (b.fail e).cfgValid = b.cfgValid := rfl
@[simp] theorem Block.fail_err (e : ErrCode) : (b.fail e).err = e.code := rfl
@[simp] theorem Block.fail_bps (e : ErrCode) : (b.fail e).bps = b.bps := rfl
@[simp] theorem Block.fail_channels (e : ErrCode) : (b.fail e).channels = b.channels := rfl
@[simp] theorem Block.fail_interval (e : ErrCode) : (b.fail e).interval = b.interval := rfl
@[simp] theorem Block.fail_paceCount (e : ErrCode) : (b.fail e).paceCount = b.paceCount := rfl
@[simp] theorem Block.fail_word (e : ErrCode) : (b.fail e).word = b.word := rfl
@[simp] theorem Block.fail_frame (e : ErrCode) : (b.fail e).frame = b.frame := rfl

/-! `Block.clearErr` -/

@[simp] theorem Block.clearErr_cfgBits : (b.clearErr).cfgBits = b.cfgBits := rfl
@[simp] theorem Block.clearErr_cfgRate : (b.clearErr).cfgRate = b.cfgRate := rfl
@[simp] theorem Block.clearErr_cfgBrate : (b.clearErr).cfgBrate = b.cfgBrate := rfl
@[simp] theorem Block.clearErr_dataIn : (b.clearErr).dataIn = b.dataIn := rfl
@[simp] theorem Block.clearErr_cfgValid : (b.clearErr).cfgValid = b.cfgValid := rfl
@[simp] theorem Block.clearErr_err : (b.clearErr).err = 0#4 := rfl
@[simp] theorem Block.clearErr_bps : (b.clearErr).bps = b.bps := rfl
@[simp] theorem Block.clearErr_channels : (b.clearErr).channels = b.channels := rfl
@[simp] theorem Block.clearErr_interval : (b.clearErr).interval = b.interval := rfl
@[simp] theorem Block.clearErr_paceCount : (b.clearErr).paceCount = b.paceCount := rfl
@[simp] theorem Block.clearErr_word : (b.clearErr).word = b.word := rfl
@[simp] theorem Block.clearErr_frame : (b.clearErr).frame = b.frame := rfl

/-! `Block.assemble` -/

@[simp] theorem Block.assemble_cfgBits (code : Code) : (b.assemble code).cfgBits = b.cfgBits := rfl
@[simp] theorem Block.assemble_cfgRate (code : Code) : (b.assemble code).cfgRate = b.cfgRate := rfl
@[simp] theorem Block.assemble_cfgBrate (code : Code) : (b.assemble code).cfgBrate = b.cfgBrate := rfl
@[simp] theorem Block.assemble_dataIn (code : Code) : (b.assemble code).dataIn = b.dataIn := rfl
@[simp] theorem Block.assemble_cfgValid (code : Code) : (b.assemble code).cfgValid = b.cfgValid := rfl
@[simp] theorem Block.assemble_err (code : Code) : (b.assemble code).err = b.err := rfl
@[simp] theorem Block.assemble_bps (code : Code) : (b.assemble code).bps = b.bps := rfl
@[simp] theorem Block.assemble_channels (code : Code) : (b.assemble code).channels = b.channels := rfl
@[simp] theorem Block.assemble_interval (code : Code) : (b.assemble code).interval = b.interval := rfl
@[simp] theorem Block.assemble_paceCount (code : Code) : (b.assemble code).paceCount = b.paceCount := rfl
@[simp] theorem Block.assemble_word (code : Code) : (b.assemble code).word = dacWord Config.chselPrefix code := rfl
@[simp] theorem Block.assemble_frame (code : Code) : (b.assemble code).frame = swap16 (dacWord Config.chselPrefix code) := rfl

/-! `Block.startDelay` -/

@[simp] theorem Block.startDelay_cfgBits : (b.startDelay).cfgBits = b.cfgBits := rfl
@[simp] theorem Block.startDelay_cfgRate : (b.startDelay).cfgRate = b.cfgRate := rfl
@[simp] theorem Block.startDelay_cfgBrate : (b.startDelay).cfgBrate = b.cfgBrate := rfl
@[simp] theorem Block.startDelay_dataIn : (b.startDelay).dataIn = b.dataIn := rfl
@[simp] theorem Block.startDelay_cfgValid : (b.startDelay).cfgValid = b.cfgValid := rfl
@[simp] theorem Block.startDelay_err : (b.startDelay).err = b.err := rfl
@[simp] theorem Block.startDelay_bps : (b.startDelay).bps = b.bps := rfl
@[simp] theorem Block.startDelay_channels : (b.startDelay).channels = b.channels := rfl
@[simp] theorem Block.startDelay_interval : (b.startDelay).interval = b.interval := rfl
@[simp] theorem Block.startDelay_paceCount : (b.startDelay).paceCount = b.interval := rfl
@[simp] theorem Block.startDelay_word : (b.startDelay).word = b.word := rfl
@[simp] theorem Block.startDelay_frame : (b.startDelay).frame = b.frame := rfl

/-! `Block.stopDelay` -/

@[simp] theorem Block.stopDelay_cfgBits : (b.stopDelay).cfgBits = b.cfgBits := rfl
@[simp] theorem Block.stopDelay_cfgRate : (b.stopDelay).cfgRate = b.cfgRate := rfl
@[simp] theorem Block.stopDelay_cfgBrate : (b.stopDelay).cfgBrate = b.cfgBrate := rfl
@[simp] theorem Block.stopDelay_dataIn : (b.stopDelay).dataIn = b.dataIn := rfl
@[simp] theorem Block.stopDelay_cfgValid : (b.stopDelay).cfgValid = b.cfgValid := rfl
@[simp] theorem Block.stopDelay_err : (b.stopDelay).err = b.err := rfl
@[simp] theorem Block.stopDelay_bps : (b.stopDelay).bps = b.bps := rfl
@[simp] theorem Block.stopDelay_channels : (b.stopDelay).channels = b.channels := rfl
@[simp] theorem Block.stopDelay_interval : (b.stopDelay).interval = b.interval := rfl
@[simp] theorem Block.stopDelay_paceCount : (b.stopDelay).paceCount = 0#32 := rfl
@[simp] theorem Block.stopDelay_word : (b.stopDelay).word = b.word := rfl
@[simp] theorem Block.stopDelay_frame : (b.stopDelay).frame = b.frame := rfl

/-! `Block.accept` -/

@[simp] theorem Block.accept_cfgBits (n ch : BitVec 2) (us : Word) : (b.accept n ch us).cfgBits = b.cfgBits := rfl
@[simp] theorem Block.accept_cfgRate (n ch : BitVec 2) (us : Word) : (b.accept n ch us).cfgRate = b.cfgRate := rfl
@[simp] theorem Block.accept_cfgBrate (n ch : BitVec 2) (us : Word) : (b.accept n ch us).cfgBrate = b.cfgBrate := rfl
@[simp] theorem Block.accept_dataIn (n ch : BitVec 2) (us : Word) : (b.accept n ch us).dataIn = b.dataIn := rfl
@[simp] theorem Block.accept_cfgValid (n ch : BitVec 2) (us : Word) : (b.accept n ch us).cfgValid = true := rfl
@[simp] theorem Block.accept_err (n ch : BitVec 2) (us : Word) : (b.accept n ch us).err = b.err := rfl
@[simp] theorem Block.accept_bps (n ch : BitVec 2) (us : Word) : (b.accept n ch us).bps = n := rfl
@[simp] theorem Block.accept_channels (n ch : BitVec 2) (us : Word) : (b.accept n ch us).channels = ch := rfl
@[simp] theorem Block.accept_interval (n ch : BitVec 2) (us : Word) : (b.accept n ch us).interval = us := rfl
@[simp] theorem Block.accept_paceCount (n ch : BitVec 2) (us : Word) : (b.accept n ch us).paceCount = b.paceCount := rfl
@[simp] theorem Block.accept_word (n ch : BitVec 2) (us : Word) : (b.accept n ch us).word = b.word := rfl
@[simp] theorem Block.accept_frame (n ch : BitVec 2) (us : Word) : (b.accept n ch us).frame = b.frame := rfl

/-! `Block.reject` -/

@[simp] theorem Block.reject_cfgBits : (b.reject).cfgBits = b.cfgBits := rfl
@[simp] theorem Block.reject_cfgRate : (b.reject).cfgRate = b.cfgRate := rfl
@[simp] theorem Block.reject_cfgBrate : (b.reject).cfgBrate = b.cfgBrate := rfl
@[simp] theorem Block.reject_dataIn : (b.reject).dataIn = b.dataIn := rfl
@[simp] theorem Block.reject_cfgValid : (b.reject).cfgValid = false := rfl
@[simp] theorem Block.reject_err : (b.reject).err = 1#4 := rfl
@[simp] theorem Block.reject_bps : (b.reject).bps = 0#2 := rfl
@[simp] theorem Block.reject_channels : (b.reject).channels = 0#2 := rfl
@[simp] theorem Block.reject_interval : (b.reject).interval = 0#32 := rfl
@[simp] theorem Block.reject_paceCount : (b.reject).paceCount = b.paceCount := rfl
@[simp] theorem Block.reject_word : (b.reject).word = b.word := rfl
@[simp] theorem Block.reject_frame : (b.reject).frame = b.frame := rfl

/-! `Block.tick` -/

@[simp] theorem Block.tick_cfgBits : b.tick.cfgBits = b.cfgBits := by unfold Block.tick; split <;> rfl
@[simp] theorem Block.tick_cfgRate : b.tick.cfgRate = b.cfgRate := by unfold Block.tick; split <;> rfl
@[simp] theorem Block.tick_cfgBrate : b.tick.cfgBrate = b.cfgBrate := by unfold Block.tick; split <;> rfl
@[simp] theorem Block.tick_dataIn : b.tick.dataIn = b.dataIn := by unfold Block.tick; split <;> rfl
@[simp] theorem Block.tick_cfgValid : b.tick.cfgValid = b.cfgValid := by unfold Block.tick; split <;> rfl
@[simp] theorem Block.tick_err : b.tick.err = b.err := by unfold Block.tick; split <;> rfl
@[simp] theorem Block.tick_bps : b.tick.bps = b.bps := by unfold Block.tick; split <;> rfl
@[simp] theorem Block.tick_channels : b.tick.channels = b.channels := by unfold Block.tick; split <;> rfl
@[simp] theorem Block.tick_interval : b.tick.interval = b.interval := by unfold Block.tick; split <;> rfl
@[simp] theorem Block.tick_word : b.tick.word = b.word := by unfold Block.tick; split <;> rfl
@[simp] theorem Block.tick_frame : b.tick.frame = b.frame := by unfold Block.tick; split <;> rfl
@[simp] theorem Block.tick_paceCount :
    b.tick.paceCount = if b.paceCount ≠ 0#32 then b.paceCount - 1#32 else b.paceCount := by
  unfold Block.tick; split <;> rfl

/-! `Block.store`: the components a host write never reaches. -/

@[simp] theorem Block.store_cfgValid (off : Offset) (v : Word) : (b.store off v).cfgValid = b.cfgValid := by
  unfold Block.store; repeat' split
  all_goals rfl
@[simp] theorem Block.store_err (off : Offset) (v : Word) : (b.store off v).err = b.err := by
  unfold Block.store; repeat' split
  all_goals rfl
@[simp] theorem Block.store_bps (off : Offset) (v : Word) : (b.store off v).bps = b.bps := by
  unfold Block.store; repeat' split
  all_goals rfl
@[simp] theorem Block.store_channels (off : Offset) (v : Word) : (b.store off v).channels = b.channels := by
  unfold Block.store; repeat' split
  all_goals rfl
@[simp] theorem Block.store_interval (off : Offset) (v : Word) : (b.store off v).interval = b.interval := by
  unfold Block.store; repeat' split
  all_goals rfl
@[simp] theorem Block.store_paceCount (off : Offset) (v : Word) : (b.store off v).paceCount = b.paceCount := by
  unfold Block.store; repeat' split
  all_goals rfl
@[simp] theorem Block.store_word (off : Offset) (v : Word) : (b.store off v).word = b.word := by
  unfold Block.store; repeat' split
  all_goals rfl
@[simp] theorem Block.store_frame (off : Offset) (v : Word) : (b.store off v).frame = b.frame := by
  unfold Block.store; repeat' split
  all_goals rfl

/-! `Block.reset` -/

@[simp] theorem Block.reset_cfgBits : Block.reset.cfgBits = 0#16 := rfl
@[simp] theorem Block.reset_cfgRate : Block.reset.cfgRate = 0#32 := rfl
@[simp] theorem Block.reset_cfgBrate : Block.reset.cfgBrate = 0#32 := rfl
@[simp] theorem Block.reset_dataIn : Block.reset.dataIn = 0#32 := rfl
@[simp] theorem Block.reset_cfgValid : Block.reset.cfgValid = false := rfl
@[simp] theorem Block.reset_err : Block.reset.err = 0#4 := rfl
@[simp] theorem Block.reset_bps : Block.reset.bps = 0#2 := rfl
@[simp] theorem Block.reset_channels : Block.reset.channels = 0#2 := rfl
@[simp] theorem Block.reset_interval : Block.reset.interval = 0#32 := rfl
@[simp] theorem Block.reset_paceCount : Block.reset.paceCount = 0#32 := rfl
@[simp] theorem Block.reset_word : Block.reset.word = 0#16 := rfl
@[simp] theorem Block.reset_frame : Block.reset.frame = 0#16 := rfl

/-! `Block.view`: what each register of the map reads as, without the offset's case split. -/

@[simp] theorem Block.view_cmd : b.view 0x00#8 = 0#32 := rfl
@[simp] theorem Block.view_status : b.view 0x04#8 = b.status := rfl
@[simp] theorem Block.view_cfgBits : b.view 0x08#8 = b.cfgBits.setWidth 32 := rfl
@[simp] theorem Block.view_cfgRate : b.view 0x0C#8 = b.cfgRate := rfl
@[simp] theorem Block.view_cfgBrate : b.view 0x10#8 = b.cfgBrate := rfl
@[simp] theorem Block.view_dataIn : b.view 0x14#8 = b.dataIn := rfl
@[simp] theorem Block.view_frame : b.view 0x18#8 = b.frame.setWidth 32 := rfl
@[simp] theorem Block.view_interval : b.view 0x1C#8 = b.interval := rfl
@[simp] theorem Block.view_format : b.view 0x20#8 = b.format := rfl
@[simp] theorem Block.view_paceCount : b.view 0x24#8 = b.paceCount := rfl
@[simp] theorem Block.view_word : b.view 0x28#8 = b.word.setWidth 32 := rfl

/-! `Block.store`: the four RW registers. -/

@[simp] theorem Block.store_at_cfgBits (v : Word) : b.store 0x08#8 v = { b with cfgBits := v.extractLsb' 0 16 } := rfl
@[simp] theorem Block.store_at_cfgRate (v : Word) : b.store 0x0C#8 v = { b with cfgRate := v } := rfl
@[simp] theorem Block.store_at_cfgBrate (v : Word) : b.store 0x10#8 v = { b with cfgBrate := v } := rfl
@[simp] theorem Block.store_at_dataIn (v : Word) : b.store 0x14#8 v = { b with dataIn := v } := rfl

end Sys2Proof.Machine
end

