-- ==== Sys2Proof/Laws/Ops.lean ====
section
/-!
SUPPORT. For each shared operation, once, everything it can do; the proofs of the statements cite these lemmas instead of
unfolding the operations.
-/

namespace Sys2Proof.Machine

/-! ## Flags -/

theorem Block.busy_eq_false (b : Block) : b.busy = false ↔ b.paceCount = 0#32 := by
  simp [Block.busy]

theorem Block.busy_eq_true (b : Block) : b.busy = true ↔ b.paceCount ≠ 0#32 := by
  simp [Block.busy]

/-- The tick as a number: one less, and never below 0. -/
theorem Block.tick_paceCount_toNat (b : Block) : b.tick.paceCount.toNat = b.paceCount.toNat - 1 := by
  rw [Block.tick_paceCount]
  split
  · next h =>
    have h0 : b.paceCount.toNat ≠ 0 := fun hz => h (BitVec.eq_of_toNat_eq hz)
    rw [BitVec.toNat_sub_of_le] <;> simp [BitVec.le_def]; omega
  · next h => simp [not_not.mp h]

/-! ## Completion: a command's writes, and nothing else -/

@[simp] theorem commit_eq (s : State) (b : Block) : commit s b = .next { s with st := b } := rfl

/-- Every command completes, and touches only ASFC's own state. -/
theorem exec_commits (i : Instr) (s : State) : ∃ b, exec i s = .next { s with st := b } := by
  cases i <;> exact ⟨_, rfl⟩

/-- A word written to `CMD`: the named command, or the failure that changes `err` alone. -/
theorem executeCommand_cases (v : Word) (s : State) :
    (∃ i, decode v = .ok i ∧ executeCommand v s = exec i s) ∨
    (∃ e, decode v = .error e ∧ executeCommand v s = .next { s with st := s.st.fail .illegalCmd }) := by
  unfold executeCommand
  cases h : decode v with
  | ok i => exact .inl ⟨i, rfl, rfl⟩
  | error e => exact .inr ⟨e, rfl, rfl⟩

theorem executeCommand_commits (v : Word) (s : State) : ∃ b, executeCommand v s = .next { s with st := b } := by
  rcases executeCommand_cases v s with ⟨i, -, h⟩ | ⟨e, -, h⟩
  · rw [h]; exact exec_commits i s
  · exact ⟨_, h⟩

/-! ## CONFIGURE's derivation -/

/-- What a successful derivation says of the staged fields. -/
theorem deriveFormat_some {bits : BitVec 16} {rate brate us : Word} {n ch : BitVec 2}
    (h : deriveFormat bits rate brate = some (n, ch, us)) :
    rate ≠ 0#32 ∧ (n = 1#2 ∨ n = 2#2) ∧ (ch = 1#2 ∨ ch = 2#2) ∧ us = sampleInterval rate := by
  unfold deriveFormat at h
  split at h
  · cases h
  · next hr =>
    refine ⟨hr, ?_⟩
    split at h
    · cases h
    · next b hb =>
      have hn : b = 1#2 ∨ b = 2#2 := by
        unfold bytesPerSample at hb
        split at hb
        · simp_all
        · split at hb <;> simp_all
      split at h
      · simp only [Option.some.injEq, Prod.mk.injEq] at h; obtain ⟨rfl, rfl, rfl⟩ := h; simp [hn]
      · split at h
        · simp only [Option.some.injEq, Prod.mk.injEq] at h; obtain ⟨rfl, rfl, rfl⟩ := h; simp [hn]
        · cases h

/-- CONFIGURE: the busy failure, the acceptance of a derived format, or the reject. -/
theorem execConfigure_cases (s : State) :
    (s.st.busy = true ∧ exec .configure s = .next { s with st := s.st.fail .busy }) ∨
    (∃ n ch us, s.st.busy = false ∧ deriveFormat s.st.cfgBits s.st.cfgRate s.st.cfgBrate = some (n, ch, us) ∧
      exec .configure s = .next { s with st := s.st.accept n ch us }) ∨
    (s.st.busy = false ∧ deriveFormat s.st.cfgBits s.st.cfgRate s.st.cfgBrate = none ∧
      exec .configure s = .next { s with st := s.st.reject }) := by
  cases hb : s.st.busy with
  | true => exact .inl ⟨rfl, by simp [exec, execConfigure, hb]⟩
  | false =>
    cases hd : deriveFormat s.st.cfgBits s.st.cfgRate s.st.cfgBrate with
    | none => exact .inr (.inr ⟨rfl, rfl, by simp [exec, execConfigure, hb, hd]⟩)
    | some f => exact .inr (.inl ⟨f.1, f.2.1, f.2.2, rfl, rfl, by simp [exec, execConfigure, hb, hd]⟩)

/-! ## The conversion and pace commands -/

/-- CONVERT: the failure, or a conversion. -/
theorem execConvert_cases (s : State) :
    (s.st.cfgValid = false ∧ exec .convert s = .next { s with st := s.st.fail .notConfigured }) ∨
    (s.st.cfgValid = true ∧ exec .convert s = .next { s with st := s.st.assemble s.st.configuredCode }) := by
  cases h : s.st.cfgValid <;> simp [exec, execConvert, h]

/-- PACE: one of the two failures, or the load of the counter. -/
theorem execPace_cases (s : State) :
    (s.st.cfgValid = false ∧ exec .pace s = .next { s with st := s.st.fail .notConfigured }) ∨
    (s.st.cfgValid = true ∧ s.st.busy = true ∧ exec .pace s = .next { s with st := s.st.fail .busy }) ∨
    (s.st.cfgValid = true ∧ s.st.busy = false ∧ exec .pace s = .next { s with st := s.st.startDelay }) := by
  cases h : s.st.cfgValid <;> cases h' : s.st.busy <;> simp [exec, execPace, h, h']

/-- CONVERT_PACE: one of the two failures, or the conversion and the load of the counter. -/
theorem execConvertPace_cases (s : State) :
    (s.st.cfgValid = false ∧ exec .convertPace s = .next { s with st := s.st.fail .notConfigured }) ∨
    (s.st.cfgValid = true ∧ s.st.busy = true ∧ exec .convertPace s = .next { s with st := s.st.fail .busy }) ∨
    (s.st.cfgValid = true ∧ s.st.busy = false ∧
      exec .convertPace s = .next { s with st := (s.st.assemble s.st.configuredCode).startDelay }) := by
  cases h : s.st.cfgValid <;> cases h' : s.st.busy <;> simp [exec, execConvertPace, h, h']

/-! ## One clock cycle -/

/-- The access of a cycle: the execution of a word written to `CMD`, a store, or nothing. -/
theorem accessEffect_cases (c : PortCycle) (s : State) :
    (c.busSel = true ∧ c.legal = true ∧ c.busWrite = true ∧ c.busAddr = 0x00#8 ∧
      accessEffect c s = executeCommand c.busWdata s) ∨
    (c.busSel = true ∧ c.legal = true ∧ c.busWrite = true ∧ c.busAddr ≠ 0x00#8 ∧
      accessEffect c s = .next { s with st := s.st.store c.busAddr c.busWdata }) ∨
    ((c.busSel && c.legal && c.busWrite) = false ∧ accessEffect c s = .next s) := by
  unfold accessEffect writeRegister
  cases h : (c.busSel && c.legal && c.busWrite) with
  | false => exact .inr (.inr ⟨rfl, rfl⟩)
  | true =>
    simp only [Bool.and_eq_true] at h
    by_cases ha : c.busAddr = 0x00#8
    · exact .inl ⟨h.1.1, h.1.2, h.2, ha, by simp [ha]⟩
    · exact .inr (.inl ⟨h.1.1, h.1.2, h.2, ha, by simp [ha]⟩)

theorem accessEffect_commits (c : PortCycle) (s : State) : ∃ b, accessEffect c s = .next { s with st := b } := by
  rcases accessEffect_cases c s with ⟨_, _, _, _, h⟩ | ⟨_, _, _, _, h⟩ | ⟨_, h⟩
  · rw [h]; exact executeCommand_commits _ _
  · exact ⟨_, h⟩
  · exact ⟨s.st, h⟩

@[simp] theorem tickEffect_inputs (c : PortCycle) (s : State) : (tickEffect c s).inputs = s.inputs := by
  unfold tickEffect; split <;> rfl

@[simp] theorem tickEffect_reply (c : PortCycle) (s : State) : (tickEffect c s).reply = s.reply := by
  unfold tickEffect; split <;> rfl

@[simp] theorem tickEffect_st (c : PortCycle) (s : State) :
    (tickEffect c s).st = if c.usTick then s.st.tick else s.st := by
  unfold tickEffect; split <;> rfl

/-- One clock cycle: reset; the bus error; or the access and then the tick, which touch ASFC's own state only. -/
theorem clockCycle_cases (c : PortCycle) (s : State) :
    (c.rstN = false ∧ clockCycle c s = .next { s with st := Block.reset, reply := busReply s.st c }) ∨
    (c.illegalAccess = true ∧ clockCycle c s = .fault (.busError c.busAddr)) ∨
    (c.rstN = true ∧ c.illegalAccess = false ∧ ∃ b : Block,
      accessEffect c { s with reply := busReply s.st c } = .next { s with st := b, reply := busReply s.st c } ∧
      clockCycle c s = .next { s with st := if c.usTick then b.tick else b, reply := busReply s.st c }) := by
  cases hr : c.rstN with
  | false => exact .inl ⟨rfl, by simp [clockCycle, hr]⟩
  | true =>
    cases hi : c.illegalAccess with
    | true => exact .inr (.inl ⟨rfl, by simp [clockCycle, hr, hi]⟩)
    | false =>
      obtain ⟨b, hb⟩ := accessEffect_commits c { s with reply := busReply s.st c }
      refine .inr (.inr ⟨rfl, rfl, b, hb, ?_⟩)
      simp only [clockCycle, hr, hi, hb, tickEffect]
      cases c.usTick <;> rfl

/-- The cycle a step takes, and what is left of the presented ones. -/
def State.nextCycle (s : State) : PortCycle × List PortCycle :=
  match s.inputs with
  | [] => (PortCycle.idle, [])
  | c :: rest => (c, rest)

theorem State.nextCycle_cons {s : State} {c : PortCycle} {rest : List PortCycle} (h : s.inputs = c :: rest) :
    s.nextCycle = (c, rest) := by
  simp [State.nextCycle, h]

/-- A step is one clock cycle of the next presented cycle, the idle one where none is left. -/
theorem step_eq_clockCycle (s : State) :
    step s = clockCycle s.nextCycle.1 { s with inputs := s.nextCycle.2 } := by
  obtain ⟨b, inp, r⟩ := s
  cases inp <;> rfl

/-- What a step that goes on did: a reset, or an access and a tick on ASFC's own state. -/
theorem step_next_cases {s t : State} (h : step s = .next t) :
    (s.nextCycle.1.rstN = false ∧ t.st = Block.reset ∧ t.inputs = s.nextCycle.2) ∨
    (s.nextCycle.1.rstN = true ∧ s.nextCycle.1.illegalAccess = false ∧ t.inputs = s.nextCycle.2 ∧
      ∃ (q : State) (b : Block), q.st = s.st ∧ accessEffect s.nextCycle.1 q = .next { q with st := b } ∧
        t.st = if s.nextCycle.1.usTick then b.tick else b) := by
  rw [step_eq_clockCycle] at h
  rcases clockCycle_cases s.nextCycle.1 { s with inputs := s.nextCycle.2 } with ⟨hr, e⟩ | ⟨-, e⟩ | ⟨hr, hi, b, ha, e⟩
  · rw [e] at h
    cases h
    exact .inl ⟨hr, rfl, rfl⟩
  · rw [e] at h
    cases h
  · rw [e] at h
    cases h
    exact .inr ⟨hr, hi, rfl, { s with inputs := s.nextCycle.2, reply := busReply s.st s.nextCycle.1 }, b, rfl, ha, rfl⟩

/-! ## Runs -/

/-- A run's first step, where it goes on. -/
theorem run_succ_of_next {s t : State} (h : step s = .next t) (n : Nat) :
    Sys2Proof.core.run (n + 1) s = Sys2Proof.core.run n t := by
  have h' : Sys2Proof.core.step s = .next t := h
  simp only [Host.Core.run, h']

/-- A run that goes on began with a step that goes on. -/
theorem run_succ_next {s u : State} {n : Nat} (h : Sys2Proof.core.run (n + 1) s = .next u) :
    ∃ t, step s = .next t ∧ Sys2Proof.core.run n t = .next u := by
  simp only [Host.Core.run] at h
  cases hs : Sys2Proof.core.step s with
  | next t => simp only [hs] at h; exact ⟨t, hs, h⟩
  | fault r => simp [hs] at h
  | refused r => simp [hs] at h

/-! ## Which command a cycle runs -/

/-- A command that a cycle executes is the one its `runs` names. -/
theorem PortCycle.runs_of {c : PortCycle} {i : Instr} (hr : c.rstN = true) (hs : c.busSel = true) (hl : c.legal = true)
    (hw : c.busWrite = true) (ha : c.busAddr = 0x00#8) (hd : decode c.busWdata = .ok i) : c.runs i = true := by
  simp [PortCycle.runs, hr, hs, hl, hw, ha, hd]

theorem PortCycle.runs_spec {c : PortCycle} {i : Instr} (h : c.runs i = true) :
    c.rstN = true ∧ c.busSel = true ∧ c.legal = true ∧ c.busWrite = true ∧ c.busAddr = 0x00#8 ∧
      decode c.busWdata = .ok i := by
  unfold PortCycle.runs at h
  cases hd : decode c.busWdata <;> simp_all

end Sys2Proof.Machine
end

