-- ==== Sys2Proof/Laws/PerInstr.lean ====
section
/-!
SUPPORT. A law of every instruction as syntax, proved one constructor at a time: its command word has `RSV` = 0, and its
opcode is below 0x12 (30_encoding.md R70, R73).
-/

namespace Sys2Proof.Laws.CommandWordShape

/-- The shape of an instruction's command word. -/
def Statement (i : Instr) : Prop :=
  (CommandWord.ofWord (encode i)).rsv = 0#24 ∧ (CommandWord.ofWord (encode i)).op.toNat < 0x12

theorem nop : Statement .nop := by unfold Statement; decide
theorem configure : Statement .configure := by unfold Statement; decide
theorem convert : Statement .convert := by unfold Statement; decide
theorem pace : Statement .pace := by unfold Statement; decide
theorem convertPace : Statement .convertPace := by unfold Statement; decide
theorem abort : Statement .abort := by unfold Statement; decide
theorem clearErr : Statement .clearErr := by unfold Statement; decide
theorem softReset : Statement .softReset := by unfold Statement; decide
theorem cvt16 : Statement .cvt16 := by unfold Statement; decide
theorem cvt8 : Statement .cvt8 := by unfold Statement; decide

end Sys2Proof.Laws.CommandWordShape
end

