-- ==== Sys2Proof/Laws/Playback.lean ====
section
/-!
SUPPORT. What the host's steps of playback can do (70_reset_and_hazards.md R194): every step completes, a rejected header
stops playback, and one stride becomes one transferred frame and one delay.
-/

namespace Sys2Proof.Machine

/-- A presented cycle is one clock cycle of the device, and leaves the cycles to come as they were. -/
theorem State.present_eq (s : State) (c : PortCycle) : s.present c = clockCycle c s := rfl

/-- A read of an aligned offset answers with the register and leaves the block. -/
theorem State.present_read (s : State) {off : Offset} (h : (PortCycle.read off).legal = true) :
    s.present (PortCycle.read off) =
      .next { s with reply := some { rdata := some (s.st.view off), err := false } } := by
  simp only [PortCycle.legal, PortCycle.read, PortCycle.idle] at h
  simp_all [State.present_eq, clockCycle, PortCycle.illegalAccess, PortCycle.legal, PortCycle.read, PortCycle.idle,
    accessEffect, busReply, tickEffect]

/-- A write of a command word runs the command on the state whose write is answered. -/
theorem State.present_command (s : State) (i : Instr) :
    s.present (PortCycle.command (encode i)) = exec i { s with reply := some { rdata := none, err := false } } := by
  cases i <;> rfl

/-- A 32-bit write is illegal exactly where its offset is not aligned. -/
theorem PortCycle.write_illegalAccess (off : Offset) (v : Word) :
    (PortCycle.write off v).illegalAccess = !(off.extractLsb' 0 2 == 0b00#2) := by
  simp [PortCycle.illegalAccess, PortCycle.legal, PortCycle.write, PortCycle.idle]

/-- A write of `DATA_IN` stages the value. -/
theorem State.present_dataIn (s : State) (v : Word) :
    s.present (PortCycle.write RegName.dataIn.off v) =
      .next { s with st := { s.st with dataIn := v }, reply := some { rdata := none, err := false } } := by
  have hi : (PortCycle.write RegName.dataIn.off v).illegalAccess = false := by
    rw [PortCycle.write_illegalAccess]; rfl
  rw [State.present_eq, clockCycle, hi]
  simp [PortCycle.legal, PortCycle.write, PortCycle.idle, RegName.off, accessEffect, writeRegister, busReply, tickEffect,
    PortCycle.illegalAccess]

@[simp] theorem State.readData_read (s : State) (v : Word) (e : Bool) :
    ({ s with reply := some { rdata := some v, err := e } } : State).readData = v := rfl

/-! ## The accesses are those of the two interactions of 60_exceptions.md R184 -/

theorem Playback.accesses_awaitHeader (y : Playback) :
    [PlaybackLine.writeBits, .writeSampleRate, .writeByteRate, .configure, .readStatus, .readStride].map
      (fun l => ({ y with line := l } : Playback).access) = (configureTransactions y.header).map some := rfl

theorem Playback.accesses_stride (y : Playback) (p : List Byte) (rest : List (List Byte)) (h : y.strides = p :: rest) :
    [PlaybackLine.nextStride, .convert, .transferFrame, .pace, .waitIdle].map
      (fun l => ({ y with line := l } : Playback).access) = (strideTransactions y.fill p).map some := by
  simp [Playback.access, strideTransactions, h]

/-- Playback presents no illegal access. -/
theorem Playback.access_legal {y : Playback} {c : PortCycle} (h : y.access = some c) : c.illegalAccess = false := by
  unfold Playback.access at h
  split at h
  case h_8 =>
    obtain ⟨p, -, rfl⟩ := Option.map_eq_some_iff.1 h
    rw [PortCycle.write_illegalAccess]; rfl
  all_goals first
    | (cases h; rfl)
    | (cases h; rw [PortCycle.write_illegalAccess]; rfl)
    | cases h

/-- A presented legal cycle completes. -/
theorem State.present_completes (s : State) {c : PortCycle} (h : c.illegalAccess = false) : ∃ d, s.present c = .next d := by
  rw [State.present_eq]
  rcases clockCycle_cases c s with ⟨_, e⟩ | ⟨x, _⟩ | ⟨_, _, _, _, e⟩
  · exact ⟨_, e⟩
  · rw [x] at h; cases h
  · exact ⟨_, e⟩

/-- Everything a step of either agent can do in playback: it completes; the host takes its access, if any, and goes on; a
tick touches the device alone. -/
theorem Playback.act_cases (y : Playback) (e : PlaybackEvent) :
    (e = .host ∧ y.access = none ∧ y.act e = .next y.proceed) ∨
    (∃ c d, e = .host ∧ y.access = some c ∧ y.dev.present c = .next d ∧ y.act e = .next (Playback.proceed { y with dev := d })) ∨
    (∃ d, e = .tick ∧ y.dev.present PortCycle.tick = .next d ∧ y.act e = .next { y with dev := d }) := by
  cases e with
  | tick =>
    obtain ⟨d, h⟩ := y.dev.present_completes (c := PortCycle.tick) rfl
    exact .inr (.inr ⟨d, rfl, h, by simp [Playback.act, Playback.tickStep, Playback.present, h]⟩)
  | host =>
    cases ha : y.access with
    | none => exact .inl ⟨rfl, rfl, by simp [Playback.act, Playback.hostStep, ha]⟩
    | some c =>
      obtain ⟨d, h⟩ := y.dev.present_completes (Playback.access_legal ha)
      exact .inr (.inl ⟨c, d, rfl, rfl, h, by simp [Playback.act, Playback.hostStep, Playback.present, ha, h]⟩)

/-- Playback is never stopped by a fault or a refusal, along any interleaving of host and ticks. -/
theorem Playback.run_completes (events : List PlaybackEvent) (y : Playback) : ∃ z, Playback.run events y = .next z := by
  induction events generalizing y with
  | nil => exact ⟨y, rfl⟩
  | cons e rest ih =>
    have h : ∃ w, y.act e = .next w := by
      rcases y.act_cases e with ⟨_, _, h⟩ | ⟨_, _, _, _, _, h⟩ | ⟨_, _, _, h⟩
      · exact ⟨_, h⟩
      · exact ⟨_, h⟩
      · exact ⟨_, h⟩
    obtain ⟨w, h⟩ := h
    obtain ⟨z, hz⟩ := ih w
    exact ⟨z, by simp only [Playback.run, h]; exact hz⟩

/-! ## The branches -/

theorem Block.status_err (b : Block) : b.status.extractLsb' 4 4 = b.err := by
  have h : ∀ (e : BitVec 4) (p q : Bool),
      (0#24 ++ e ++ 0#2 ++ BitVec.ofBool p ++ BitVec.ofBool q).extractLsb' 4 4 = e := by decide
  exact h _ _ _

theorem Block.status_busy (b : Block) : b.status &&& 0x2#32 = 0#32 ↔ b.paceCount = 0#32 := by
  have h : ∀ (e : BitVec 4) (p q : Bool),
      0#24 ++ e ++ 0#2 ++ BitVec.ofBool p ++ BitVec.ofBool q &&& 0x2#32 = 0#32 ↔ p = false := by decide
  exact (h _ _ _).trans b.busy_eq_false

theorem Block.status_cfgValid (b : Block) : b.status.extractLsb' 0 1 = BitVec.ofBool b.cfgValid := by
  have h : ∀ (e : BitVec 4) (p q : Bool),
      (0#24 ++ e ++ 0#2 ++ BitVec.ofBool p ++ BitVec.ofBool q).extractLsb' 0 1 = BitVec.ofBool q := by decide
  exact h _ _ _

/-- The read of `STATUS` after CONFIGURE: `ERR` = 1 or `CFG_VALID` = 0 stops playback, otherwise it goes on. -/
theorem Playback.hostStep_readStatus {y : Playback} (h : y.line = .readStatus) :
    ∃ d, d.st = y.dev.st ∧ d.inputs = y.dev.inputs ∧ y.hostStep = .next
      { y with dev := d, line := if y.dev.st.err = 1#4 ∨ y.dev.st.cfgValid = false then .stopped else .readStride } := by
  refine ⟨{ y.dev with reply := some { rdata := some y.dev.st.status, err := false } }, rfl, rfl, ?_⟩
  have hp := y.dev.present_read (off := RegName.status.off) rfl
  rw [show y.dev.st.view RegName.status.off = y.dev.st.status from rfl] at hp
  simp only [Playback.hostStep, Playback.access, h, Playback.present, hp, Playback.proceed, State.readData_read,
    Block.status_err, Block.status_cfgValid]
  cases y.dev.st.cfgValid <;> by_cases he : y.dev.st.err = 1#4 <;> simp [he]

theorem Playback.hostStep_nextStride {y : Playback} {p : List Byte} {rest : List (List Byte)} (h : y.line = .nextStride)
    (hs : y.strides = p :: rest) :
    ∃ d, d.st = { y.dev.st with dataIn := packStride y.fill p } ∧
      y.hostStep = .next { y with dev := d, strides := rest, line := .convert } := by
  refine ⟨{ y.dev with
    st := { y.dev.st with dataIn := packStride y.fill p }, reply := some { rdata := none, err := false } }, rfl, ?_⟩
  simp only [Playback.hostStep, Playback.access, h, hs, List.head?_cons, Option.map_some, Playback.present,
    State.present_dataIn, Playback.proceed]

theorem Playback.hostStep_convert {y : Playback} (h : y.line = .convert) (hv : y.dev.st.cfgValid = true) :
    ∃ d, d.st = y.dev.st.assemble y.dev.st.configuredCode ∧
      y.hostStep = .next { y with dev := d, line := .transferFrame } := by
  refine ⟨{ y.dev with
    st := y.dev.st.assemble y.dev.st.configuredCode, reply := some { rdata := none, err := false } }, rfl, ?_⟩
  rcases execConvert_cases { y.dev with reply := some { rdata := none, err := false } } with ⟨x, _⟩ | ⟨_, e⟩
  · rw [show y.dev.st.cfgValid = false from x] at hv; cases hv
  · simp only [Playback.hostStep, Playback.access, h, Playback.present, State.present_command, e, Playback.proceed]

/-- The two bytes of `FRAME` are transferred, `FRAME[7:0]` first. -/
theorem Playback.hostStep_transferFrame {y : Playback} (h : y.line = .transferFrame) :
    ∃ d, d.st = y.dev.st ∧
      y.hostStep = .next { y with dev := d, sent := y.sent ++ wireBytes y.dev.st.frame, line := .pace } := by
  refine ⟨{ y.dev with reply := some { rdata := some (y.dev.st.frame.setWidth 32), err := false } }, rfl, ?_⟩
  have hp := y.dev.present_read (off := RegName.frame.off) rfl
  rw [show y.dev.st.view RegName.frame.off = y.dev.st.frame.setWidth 32 from rfl] at hp
  have hf : (y.dev.st.frame.setWidth 32).extractLsb' 0 16 = y.dev.st.frame := by
    apply BitVec.eq_of_toNat_eq
    have := y.dev.st.frame.isLt
    simp only [BitVec.extractLsb'_toNat, BitVec.toNat_setWidth, Nat.shiftRight_zero]
    omega
  simp only [Playback.hostStep, Playback.access, h, Playback.present, hp, Playback.proceed, State.readData_read, hf]

theorem Playback.hostStep_pace {y : Playback} (h : y.line = .pace) (hv : y.dev.st.cfgValid = true)
    (hi : y.dev.st.paceCount = 0#32) :
    ∃ d, d.st = y.dev.st.startDelay ∧ y.hostStep = .next { y with dev := d, line := .waitIdle } := by
  refine ⟨{ y.dev with st := y.dev.st.startDelay, reply := some { rdata := none, err := false } }, rfl, ?_⟩
  rcases execPace_cases { y.dev with reply := some { rdata := none, err := false } } with ⟨x, _⟩ | ⟨_, x, _⟩ | ⟨_, _, e⟩
  · rw [show y.dev.st.cfgValid = false from x] at hv; cases hv
  · exact absurd hi ((Block.busy_eq_true _).1 x)
  · simp only [Playback.hostStep, Playback.access, h, Playback.present, State.present_command, e, Playback.proceed]

/-- `wait_idle` ends exactly where the delay has run down, and changes nothing of ASFC. -/
theorem Playback.hostStep_waitIdle {y : Playback} (h : y.line = .waitIdle) :
    ∃ d, d.st = y.dev.st ∧ d.inputs = y.dev.inputs ∧ y.hostStep = .next
      { y with dev := d, line := if y.dev.st.paceCount = 0#32 then .nextStride else .waitIdle } := by
  refine ⟨{ y.dev with reply := some { rdata := some y.dev.st.status, err := false } }, rfl, rfl, ?_⟩
  have hp := y.dev.present_read (off := RegName.status.off) rfl
  rw [show y.dev.st.view RegName.status.off = y.dev.st.status from rfl] at hp
  simp only [Playback.hostStep, Playback.access, h, Playback.present, hp, Playback.proceed, State.readData_read,
    Block.status_busy]
  split
  · rfl
  · rw [← h]

/-- One stride, without a tick between its accesses, on a configured idle ASFC: the stride is staged and converted, the two
bytes of its frame are transferred, and the delay is started. -/
theorem Playback.run_stride {y : Playback} {p : List Byte} {rest : List (List Byte)} (hl : y.line = .nextStride)
    (hs : y.strides = p :: rest) (hv : y.dev.st.cfgValid = true) (hi : y.dev.st.paceCount = 0#32) :
    ∃ z, Playback.run [.host, .host, .host, .host] y = .next z ∧ z.line = .waitIdle ∧ z.strides = rest ∧
      z.dev.st = (Block.assemble { y.dev.st with dataIn := packStride y.fill p }
        (Block.configuredCode { y.dev.st with dataIn := packStride y.fill p })).startDelay ∧
      z.sent = y.sent ++ wireBytes z.dev.st.frame := by
  obtain ⟨d1, e1, h1⟩ := Playback.hostStep_nextStride hl hs
  obtain ⟨d2, e2, h2⟩ := Playback.hostStep_convert
    (y := { y with dev := d1, strides := rest, line := .convert }) rfl (by simp [e1, hv])
  obtain ⟨d3, e3, h3⟩ := Playback.hostStep_transferFrame
    (y := { y with dev := d2, strides := rest, line := .transferFrame }) rfl
  obtain ⟨d4, e4, h4⟩ := Playback.hostStep_pace
    (y := { y with dev := d3, strides := rest, sent := y.sent ++ wireBytes d2.st.frame, line := .pace }) rfl
    (by simp [e3, e2, e1, hv]) (by simp [e3, e2, e1, hi])
  refine ⟨{ y with dev := d4, strides := rest, sent := y.sent ++ wireBytes d2.st.frame, line := .waitIdle },
    by simp only [Playback.run, Playback.act, h1, h2, h3, h4], rfl, rfl, ?_, ?_⟩
  · simp [e4, e3, e2, e1]
  · simp [e4, e3, e2, e1]

/-- Where the file returns no more bytes the host is drained, and from there it acts on ASFC no more. -/
theorem Playback.hostStep_fillBuffer_drained {y : Playback} (h : y.line = .fillBuffer)
    (hb : y.blocks = [] ∨ ∃ rest, y.blocks = [] :: rest) :
    ∃ z, y.hostStep = .next z ∧ z.dev = y.dev ∧ z.line = .drained ∧ z.hostStep = .next z := by
  rcases hb with hb | ⟨rest, hb⟩
  · exact ⟨{ y with line := .drained }, by simp [Playback.hostStep, Playback.access, Playback.proceed, h, hb], rfl, rfl, rfl⟩
  · exact ⟨{ y with blocks := rest, line := .drained },
      by simp [Playback.hostStep, Playback.access, Playback.proceed, h, hb], rfl, rfl, rfl⟩

/-- A filled buffer leaves its whole strides to be converted, and what follows them is dropped (70_reset_and_hazards.md
R200). -/
theorem Playback.hostStep_fillBuffer {y : Playback} {block : List Byte} {rest : List (List Byte)} (h : y.line = .fillBuffer)
    (hb : y.blocks = block :: rest) (hn : block ≠ []) :
    y.hostStep = .next { y with blocks := rest, strides := wholeStrides y.stride block, line := .nextStride } := by
  cases block with
  | nil => exact absurd rfl hn
  | cons => simp [Playback.hostStep, Playback.access, Playback.proceed, h, hb]

end Sys2Proof.Machine
end

