-- ==== Sys2Proof/Tests/Slice0.lean ====
section
/-!
SUPPORT. The model's own tests. Expected results are the spec's: 30_encoding.md R73 and R75, the worked examples of the
commands' rules, and the vectors of 95_test_vectors.md (named by their ids). After them, for every statement with
hypotheses, a witness that meets them together.
-/

namespace Sys2Proof.Tests

open Sys2Proof Sys2Proof.Machine

/-! ## Helpers -/

/-- The block of vector F1: 16-bit mono at 8000 Hz, configured (95_test_vectors.md 2.3). -/
def f1 : Block :=
  { Block.reset with
    cfgBits := 16#16, cfgRate := 8000#32, cfgBrate := 16000#32, cfgValid := true, bps := 2#2, channels := 1#2
    interval := 125#32 }

/-- The block of vector F4: 8-bit stereo at 44100 Hz, configured. -/
def f4 : Block :=
  { Block.reset with
    cfgBits := 8#16, cfgRate := 44100#32, cfgBrate := 88200#32, cfgValid := true, bps := 1#2, channels := 2#2
    interval := 22#32 }

/-- A block as reset leaves it with the three header fields staged. -/
def staged (bits : BitVec 16) (rate brate : Word) : Block :=
  { Block.reset with cfgBits := bits, cfgRate := rate, cfgBrate := brate }

/-- A machine with this block and these cycles to come. -/
def machine (b : Block) (cycles : List PortCycle) : State := { st := b, inputs := cycles, reply := none }

/-- The block after an outcome that goes on. -/
def blockAfter : Host.Outcome State Fault Refusal → Option Block
  | .next s => some s.st
  | .fault _ => none
  | .refused _ => none

/-- The answer on the bus after an outcome that goes on. -/
def replyAfter : Host.Outcome State Fault Refusal → Option (Option Reply)
  | .next s => some s.reply
  | .fault _ => none
  | .refused _ => none

/-! ## Command words: every command's word, bit by bit from R73 (`RSV` 24 bits, `OP` 8 bits) -/

theorem test_decode_nop : decode (0b000000000000000000000000#24 ++ 0b00000000#8) = .ok .nop := rfl
theorem test_decode_configure : decode (0b000000000000000000000000#24 ++ 0b00000001#8) = .ok .configure := rfl
theorem test_decode_convert : decode (0b000000000000000000000000#24 ++ 0b00000010#8) = .ok .convert := rfl
theorem test_decode_pace : decode (0b000000000000000000000000#24 ++ 0b00000011#8) = .ok .pace := rfl
theorem test_decode_convertPace : decode (0b000000000000000000000000#24 ++ 0b00000100#8) = .ok .convertPace := rfl
theorem test_decode_abort : decode (0b000000000000000000000000#24 ++ 0b00000101#8) = .ok .abort := rfl
theorem test_decode_clearErr : decode (0b000000000000000000000000#24 ++ 0b00000110#8) = .ok .clearErr := rfl
theorem test_decode_softReset : decode (0b000000000000000000000000#24 ++ 0b00000111#8) = .ok .softReset := rfl
theorem test_decode_cvt16 : decode (0b000000000000000000000000#24 ++ 0b00010000#8) = .ok .cvt16 := rfl
theorem test_decode_cvt8 : decode (0b000000000000000000000000#24 ++ 0b00010001#8) = .ok .cvt8 := rfl

theorem test_tableWord_cvt8 : decodeTableWord 32 0x00000011 = some .cvt8 := by decide
theorem test_tableWord_illegal : decodeTableWord 32 0x00000100 = none := by decide

/-- WellFormed smoke: `RSV` ≠ 0 is refused (R70). -/
theorem test_wellFormed_refuses_reservedBits : CommandWord.wellFormed ⟨0x00#8, 0x000001#24⟩ = false := by decide

/-- WellFormed smoke: reserved opcodes at the edges of both ranges are refused, their neighbours are not (R75). -/
theorem test_wellFormed_refuses_reservedOpcodes :
    [0x07#8, 0x08#8, 0x0F#8, 0x10#8, 0x11#8, 0x12#8, 0xFF#8].map (fun op => CommandWord.wellFormed ⟨op, 0#24⟩) =
      [true, false, false, true, true, false, false] := by decide

/-! ## Functions (95_test_vectors.md 2.1, 2.2) -/

theorem test_conv16_vectors :
    [0x0000#16, 0x000F#16, 0x0010#16, 0x7FFF#16, 0x800F#16, 0x8010#16, 0xFFEF#16, 0x1234#16, 0xEDCC#16].map conv16 =
      [0x800#12, 0x800#12, 0x801#12, 0xFFF#12, 0x000#12, 0x001#12, 0x7FE#12, 0x923#12, 0x6DC#12] := by decide

theorem test_conv8_vectors :
    [0x00#8, 0x0F#8, 0x7F#8, 0x81#8, 0xFF#8].map conv8 = [0x000#12, 0x0F0#12, 0x7F0#12, 0x810#12, 0xFF0#12] := by
  decide

/-- The frames of 2.1 for the prefixes 3 and 15. -/
theorem test_frames : [swap16 (dacWord 3#4 0x923#12), swap16 (dacWord 0xF#4 0xFFF#12), swap16 (dacWord 3#4 0x6DC#12)] =
    [0x2339#16, 0xFFFF#16, 0xDC36#16] := by decide

/-- P1: the host sends 0x39, then 0x23. -/
theorem test_wireBytes : wireBytes 0x2339#16 = [0x39#8, 0x23#8] := by decide

/-- S7: stride bytes `l0 l1 r0 r1` give `r1:r0:l1:l0`. -/
theorem test_packStride : packStride 0x7777_7777#32 [0x34#8, 0x12#8, 0xEF#8, 0xBE#8] = 0xBEEF1234#32 := by decide

/-! ## Commands -/

/-- F1. -/
theorem test_configure_accepts :
    blockAfter (exec .configure (machine (staged 16#16 8000#32 16000#32) [])) = some f1 := by decide

/-- F19: a reject after a success clears the derived values and sets `ERR` = 1. -/
theorem test_configure_rejects :
    blockAfter (exec .configure
        (machine { f1 with cfgBits := 24#16, cfgRate := 44100#32, cfgBrate := 264600#32, frame := 0x0038#16 } [])) =
      some { staged 24#16 44100#32 264600#32 with err := 1#4, frame := 0x0038#16 } := by decide

/-- X1: CONVERT before CONFIGURE. -/
theorem test_convert_unconfigured :
    blockAfter (exec .convert (machine { Block.reset with dataIn := 0x1234#32 } [])) =
      some { Block.reset with dataIn := 0x1234#32, err := 2#4 } := by decide

/-- X5: the 8-bit path takes the low byte; the word is `P : 0x340`. -/
theorem test_convert_eight_bits :
    blockAfter (exec .convert (machine { f4 with dataIn := 0x1234#32 } [])) =
      some { f4 with
        dataIn := 0x1234#32, word := dacWord Config.chselPrefix 0x340#12
        frame := swap16 (dacWord Config.chselPrefix 0x340#12) } := rfl

/-- T5: PACE while a delay runs. -/
theorem test_pace_busy :
    blockAfter (exec .pace (machine { f1 with paceCount := 125#32 } [])) =
      some { f1 with paceCount := 125#32, err := 4#4 } := by decide

/-- T1: `STATUS` after PACE. -/
theorem test_pace_status :
    (blockAfter (exec .pace (machine f1 []))).map (Block.view · 0x04#8) = some 0x03#32 := by decide

/-- T9: CONVERT_PACE in 8-bit stereo. -/
theorem test_convertPace :
    blockAfter (exec .convertPace (machine { f4 with dataIn := 0xFF80#32 } [])) =
      some { f4 with
        dataIn := 0xFF80#32, word := dacWord Config.chselPrefix 0x800#12
        frame := swap16 (dacWord Config.chselPrefix 0x800#12), paceCount := 22#32 } := rfl

/-- T10: CONVERT_PACE while busy converts nothing. -/
theorem test_convertPace_busy :
    blockAfter (exec .convertPace (machine { f4 with paceCount := 22#32, word := 0x3800#16 } [])) =
      some { f4 with paceCount := 22#32, word := 0x3800#16, err := 4#4 } := by decide

/-- T8. -/
theorem test_abort : blockAfter (exec .abort (machine { f1 with paceCount := 60#32, err := 4#4 } [])) =
    some { f1 with err := 4#4 } := by decide

/-- K6. -/
theorem test_clearErr : blockAfter (exec .clearErr (machine { f1 with err := 3#4 } [])) = some f1 := by decide

/-- K7. -/
theorem test_softReset : blockAfter (exec .softReset (machine { f1 with paceCount := 125#32 } [])) = some Block.reset := by
  decide

/-- K1. -/
theorem test_nop : blockAfter (exec .nop (machine { f1 with paceCount := 1#32, err := 3#4 } [])) =
    some { f1 with paceCount := 1#32, err := 3#4 } := by decide

/-- X2: CVT16 needs no configuration. -/
theorem test_cvt16 : blockAfter (exec .cvt16 (machine { Block.reset with dataIn := 0x1234#32 } [])) =
    some { Block.reset with
      dataIn := 0x1234#32, word := dacWord Config.chselPrefix 0x923#12
      frame := swap16 (dacWord Config.chselPrefix 0x923#12) } := rfl

/-- X7: CVT8 in a 16-bit configuration. -/
theorem test_cvt8 : blockAfter (exec .cvt8 (machine { f1 with dataIn := 0x1234#32 } [])) =
    some { f1 with
      dataIn := 0x1234#32, word := dacWord Config.chselPrefix 0x340#12
      frame := swap16 (dacWord Config.chselPrefix 0x340#12) } := rfl

/-! ## Cycles (95_test_vectors.md 2.5 to 2.7) -/

/-- K2: an illegal word. -/
theorem test_step_illegal_word :
    blockAfter (step (machine f1 [PortCycle.command 0x0000_0100#32])) = some { f1 with err := 3#4 } := by decide

/-- T11: PACE and a tick in the same cycle. -/
theorem test_step_pace_and_tick :
    blockAfter (step (machine f1 [{ PortCycle.command 0x0000_0003#32 with usTick := true }])) =
      some { f1 with paceCount := 124#32 } := by decide

/-- T12: the PACE sees the count before the tick, and fails. -/
theorem test_step_failing_pace_and_tick :
    blockAfter (step (machine { f1 with paceCount := 1#32 } [{ PortCycle.command 0x0000_0003#32 with usTick := true }])) =
      some { f1 with err := 4#4 } := by decide

/-- T13: a read in the cycle of a tick returns the count before it. -/
theorem test_step_read_and_tick :
    replyAfter (step (machine { f1 with paceCount := 7#32 } [{ PortCycle.read 0x24#8 with usTick := true }])) =
      some (some { rdata := some 7#32, err := false }) := by decide

/-- B1: a narrow write is a bus error. -/
theorem test_step_narrow_write :
    step (machine f1 [{ PortCycle.write 0x14#8 0xFF#32 with busStrb := 0b0001#4 }]) = .fault (.busError 0x14#8) := rfl

/-- B2: a misaligned read is a bus error. -/
theorem test_step_misaligned_read : step (machine f1 [PortCycle.read 0x06#8]) = .fault (.busError 0x06#8) := rfl

/-- B5: the reserved bits of `CFG_BITS` read 0. -/
theorem test_store_cfgBits : (Block.reset.store 0x08#8 0xFFFF_FFFF#32).view 0x08#8 = 0x0000_FFFF#32 := by decide

/-- B6, B7: writes to a reserved offset and to `STATUS` are ignored. -/
theorem test_store_ignored : [0x40#8, 0x04#8, 0x18#8].map (fun off => f1.store off 0xFFFF_FFFF#32) = [f1, f1, f1] := by
  decide

/-- The word placed where the machine takes its next command runs as the first instruction after reset: CVT8 completes. -/
theorem test_withFetchWord_cvt8 : step (State.reset.withFetchWord 32 0x11) =
    exec .cvt8 { State.reset with reply := some { rdata := none, err := false } } := rfl

/-- The unspecified state before the first reset is gone after one reset cycle (R191). -/
theorem test_powerUp_then_reset : blockAfter (step (State.powerUp 0 [PortCycle.reset])) = some Block.reset := rfl

/-- P4's host notation: `rd h0, STATUS` on a busy block with `ERR` = 4 gives 0x43. -/
theorem test_host_rd : ((HostRun.start (machine { f1 with paceCount := 1#32, err := 4#4 } [])).perform (.rd 0 .status)) =
    .next
      { dev := { machine { f1 with paceCount := 1#32, err := 4#4 } [] with
          reply := some { rdata := some 0x43#32, err := false } }
        h := (Vector.replicate 8 0#32).set 0 0x43#32, line := 1 } := rfl

/-- R194 step 1: a block that CONFIGURE left unconfigured stops playback at the read of `STATUS`. -/
theorem test_playback_stops_at_reject :
    ∃ z, ({ Playback.start (machine Block.reset.reject []) ⟨24#16, 44100#32, 264600#32⟩ [[1#8]] 0#32 with
      line := .readStatus } : Playback).hostStep = .next z ∧ z.line = .stopped := ⟨_, rfl, rfl⟩

/-- R194 step 2, R200: a block of 5 bytes at stride 2 gives two strides, and the trailing byte is dropped. -/
theorem test_playback_fills_whole_strides :
    ∃ z, ({ Playback.start (machine f1 []) ⟨16#16, 8000#32, 16000#32⟩ [[1#8, 2#8, 3#8, 4#8, 5#8]] 0#32 with
      line := .fillBuffer, stride := 2 } : Playback).hostStep = .next z ∧
        z.strides = [[1#8, 2#8], [3#8, 4#8]] ∧ z.line = .nextStride := ⟨_, rfl, by decide, rfl⟩

/-! ## Witnesses: the hypotheses of each statement are met together -/

theorem witness_ReservedEncodingsOnlySetErr :
    (0x0000_0100#32).toNat / 256 ≠ 0 ∧ (0x8000_0002#32).toNat / 256 ≠ 0 ∧
      (0x08 ≤ (0x08#32).toNat % 256 ∧ (0x0F#32).toNat % 256 ≤ 0x0F) ∧
      (0x12 ≤ (0x12#32).toNat % 256 ∧ (0xFF#32).toNat % 256 ≤ 0xFF) := by decide

theorem witness_WriteOfNoCommandWordFails :
    (machine f1 [PortCycle.command 0x08#32]).inputs = PortCycle.command 0x08#32 :: [] ∧
      0x08#32 ∉ [0x00#32, 0x01#32, 0x02#32, 0x03#32, 0x04#32, 0x05#32, 0x06#32, 0x07#32, 0x10#32, 0x11#32] := by decide

theorem witness_StepRunsTheDecodedCommand :
    ∃ c : PortCycle, (machine f1 [c]).inputs = c :: [] ∧ c.rstN = true ∧ c.busSel = true ∧ c.busWrite = true ∧
      c.busAddr = 0x00#8 ∧ c.busStrb = 0b1111#4 ∧ decode c.busWdata = .ok .cvt8 :=
  ⟨PortCycle.command 0x11#32, rfl, rfl, rfl, rfl, rfl, rfl, rfl⟩

theorem witness_ConfigureFollowsItsRule_busy : ({ f1 with paceCount := 1#32 } : Block).paceCount ≠ 0#32 := by decide

/-- Both depths, and both channel counts at the edges of the truncation. -/
theorem witness_ConfigureFollowsItsRule_accept :
    (staged 8#16 44100#32 88200#32).paceCount = 0#32 ∧ (44100#32 : Word) ≠ 0#32 ∧
      2 = (88200#32 : Word).toNat / (44100#32 : Word).toNat / 1 ∧
      1 = (31999#32 : Word).toNat / (8000#32 : Word).toNat / 2 ∧
      2 = (47999#32 : Word).toNat / (8000#32 : Word).toNat / 2 := by decide

/-- One state for each way to be rejected: the rate, the depth, the channel count at 0 and at 3. -/
theorem witness_ConfigureFollowsItsRule_reject :
    (staged 16#16 0#32 16000#32).cfgRate = 0#32 ∧
      ((staged 12#16 8000#32 16000#32).cfgBits ≠ 8#16 ∧ (staged 12#16 8000#32 16000#32).cfgBits ≠ 16#16) ∧
      3 ≤ (132300#32 : Word).toNat / (44100#32 : Word).toNat ∧ (1#32 : Word).toNat / (0xFFFFFFFF#32 : Word).toNat = 0 ∧
      (15999#32 : Word).toNat / (8000#32 : Word).toNat / 2 = 0 ∧
      3 ≤ (48000#32 : Word).toNat / (8000#32 : Word).toNat / 2 ∧ Block.reset.paceCount = 0#32 := by decide

theorem witness_ChannelCountIsTheSingleDivision :
    (8000#32 : Word) ≠ 0#32 ∧ (2#2 = 1#2 ∨ 2#2 = 2#2) ∧ (1#2 = 1#2 ∨ 1#2 = 2#2) := by decide

theorem witness_IntervalIsTheTruncatedQuotient : (1#32 : Word) ≠ 0#32 ∧ (0xFFFFFFFF#32 : Word) ≠ 0#32 := by decide

theorem witness_ConfigureCornerCases :
    (staged 16#16 0#32 5#32).paceCount = 0#32 ∧ (staged 16#16 0#32 5#32).cfgBits = 16#16 ∧
      (staged 16#16 0#32 5#32).cfgRate = 0#32 ∧ (staged 8#16 1#32 2#32).paceCount = 0#32 ∧
      (staged 8#16 1#32 2#32).cfgBits = 8#16 ∧ (staged 8#16 1#32 2#32).cfgRate = 1#32 ∧
      (staged 8#16 1#32 2#32).cfgBrate = 2#32 ∧ ({ f1 with paceCount := 125#32 } : Block).paceCount ≠ 0#32 := by decide

/-- The lowest rate above 1 MHz, in both depths. -/
theorem witness_RatesAboveOneMegahertzPaceAtOnce :
    (staged 16#16 1000001#32 2000002#32).paceCount = 0#32 ∧ 1000000 < (1000001#32 : Word).toNat ∧
      (2000002#32 : Word).toNat / (1000001#32 : Word).toNat / 2 ∈ [1, 2] ∧
      (2000002#32 : Word).toNat / (1000001#32 : Word).toNat ∈ [1, 2] := by decide

theorem witness_UnconfiguredUntilConfigureSucceeds :
    (∃ t, step (machine (staged 16#16 8000#32 16000#32) [PortCycle.command 0x01#32]) = .next t ∧ t.st.cfgValid = true) ∧
      (staged 16#16 8000#32 16000#32).cfgValid = false ∧ Block.reset.cfgValid = false ∧
      ∀ i ∈ [Instr.convert, Instr.pace, Instr.convertPace], i ∈ [Instr.convert, Instr.pace, Instr.convertPace] :=
  ⟨⟨_, rfl, rfl⟩, rfl, rfl, fun _ h => h⟩

theorem witness_ConvSixteenProperties :
    (0xFFFF#16 : Half).toInt ≤ (0x0000#16 : Half).toInt ∧ (0x000F#16 : Half).toNat ≤ 0x000F := by decide

theorem witness_SwapTwiceIsIdentity :
    ∃ b : Block, b.frame = swap16 b.word ∧ b.word ≠ 0#16 := ⟨{ f1 with word := 0x3923#16, frame := 0x2339#16 }, by decide⟩

theorem witness_PackedStrideHoldsFirstChannelLow :
    ∃ b1 b2 b3 b4 : Block, b1.dataIn = packStride 0xAAAA_AAAA#32 [0x80#8] ∧
      b2.dataIn = packStride 0#32 [0x80#8, 0xFF#8] ∧ b3.dataIn = packStride 0#32 [0x34#8, 0x12#8] ∧
      b4.dataIn = packStride 0#32 [0x34#8, 0x12#8, 0xEF#8, 0xBE#8] :=
  ⟨{ f4 with dataIn := 0xAAAAAA80#32 }, { f4 with dataIn := 0xFF80#32 }, { f1 with dataIn := 0x1234#32 },
    { f1 with dataIn := 0xBEEF1234#32 }, by decide, by decide, by decide, by decide⟩

theorem witness_ConvertFollowsItsRule :
    Block.reset.cfgValid = false ∧ (f1.cfgValid = true ∧ f1.bps = 2#2) ∧ (f4.cfgValid = true ∧ f4.bps ≠ 2#2) := by decide

theorem witness_CvtCommandsFollowTheirRules :
    (f1.cfgValid = true ∧ f1.bps = 2#2) ∧ (f4.cfgValid = true ∧ f4.bps = 1#2) := by decide

/-- Both depths and both commands, with second-channel bits that do differ. -/
theorem witness_SecondChannelIsNeverTransmitted :
    (f1.bps = 2#2 ∧ (0xBEEF0000#32 : Word).extractLsb' 0 16 = f1.dataIn.extractLsb' 0 16) ∧
      (f4.bps = 1#2 ∧ (0x0000AA00#32 : Word).extractLsb' 0 8 = f4.dataIn.extractLsb' 0 8) ∧
      (∃ t u, exec .convert (machine f1 []) = .next t ∧
        exec .convert (machine { f1 with dataIn := 0xBEEF0000#32 } []) = .next u) ∧
      (∃ t u, exec .convertPace (machine f4 []) = .next t ∧
        exec .convertPace (machine { f4 with dataIn := 0x0000AA00#32 } []) = .next u) :=
  ⟨by decide, by decide, ⟨_, _, rfl, rfl⟩, ⟨_, _, rfl, rfl⟩⟩

theorem witness_PaceFollowsItsRule :
    Block.reset.cfgValid = false ∧
      (({ f1 with paceCount := 1#32 } : Block).cfgValid = true ∧ ({ f1 with paceCount := 1#32 } : Block).paceCount ≠ 0#32) ∧
      (f1.cfgValid = true ∧ f1.paceCount = 0#32) := by decide

theorem witness_ConvertPaceFollowsItsRule :
    Block.reset.cfgValid = false ∧
      (({ f1 with paceCount := 1#32 } : Block).cfgValid = true ∧ ({ f1 with paceCount := 1#32 } : Block).paceCount ≠ 0#32) ∧
      (f1.cfgValid = true ∧ f1.paceCount = 0#32 ∧ f1.bps = 2#2) ∧
      (f4.cfgValid = true ∧ f4.paceCount = 0#32 ∧ f4.bps ≠ 2#2) := by decide

theorem witness_ConvertThenPaceIsConvertPace : f1.paceCount = 0#32 ∧ Block.reset.paceCount = 0#32 := by decide

theorem witness_AbortFollowsItsRule : f1.paceCount = 0#32 ∧ f1.cfgValid = true := by decide

theorem witness_TickStepsTheCounterDown :
    (machine f1 [{ PortCycle.command 0x03#32 with usTick := true }]).inputs =
        { PortCycle.command 0x03#32 with usTick := true } :: [] ∧
      ({ PortCycle.command 0x03#32 with usTick := true } : PortCycle).rstN = true ∧
      ({ PortCycle.command 0x03#32 with usTick := true } : PortCycle).usTick = true ∧
      ({ PortCycle.command 0x03#32 with usTick := true } : PortCycle).illegalAccess = false ∧
      (machine f1 [PortCycle.tick]).inputs = PortCycle.tick :: [] := by decide

/-- A PACE of 2 ticks: one tick, with a failing PACE, a failing CONFIGURE and a CONVERT around it, then the last tick. -/
theorem witness_DelayLastsExactlyItsTicks :
    Instr.pace ∈ [Instr.pace, Instr.convertPace] ∧ ({ f1 with interval := 2#32 } : Block).cfgValid = true ∧
      ({ f1 with interval := 2#32 } : Block).paceCount = 0#32 ∧
      (∃ p, exec .pace (machine { f1 with interval := 2#32 } []) = .next p) ∧
      (∀ c ∈ [PortCycle.command 0x03#32, PortCycle.tick, PortCycle.command 0x01#32, PortCycle.command 0x02#32,
        PortCycle.tick], c.keepsDelay = true) ∧
      ticksOf [PortCycle.command 0x03#32, PortCycle.tick, PortCycle.command 0x01#32, PortCycle.command 0x02#32] + 1 =
        (2#32 : Word).toNat ∧ PortCycle.tick.usTick = true :=
  ⟨by decide, rfl, rfl, ⟨_, rfl⟩, by decide, by decide, rfl⟩

/-- The clause of an empty delay: a PACE with interval 0. -/
theorem witness_DelayLastsExactlyItsTicks_empty :
    ({ f1 with interval := 0#32 } : Block).cfgValid = true ∧ ({ f1 with interval := 0#32 } : Block).paceCount = 0#32 ∧
      ∃ p, exec .pace (machine { f1 with interval := 0#32 } []) = .next p :=
  ⟨rfl, rfl, _, rfl⟩

theorem witness_DelayLastsExactlyItsTicks_start :
    f1.busy = false ∧ ∃ t, step (machine f1 [PortCycle.command 0x03#32]) = .next t ∧ t.st.busy = true :=
  ⟨by decide, _, rfl, by decide⟩

theorem witness_SoftResetSetsEveryComponent : ∃ t, exec .softReset (machine f1 []) = .next t := ⟨_, rfl⟩

theorem witness_CommandsKeepToTheirOperands :
    (∀ k ∈ commandReads .cvt8, f1.get k = f4.get k) ∧ Component.err ∉ commandWrites .cvt8 := by decide

theorem witness_CommandsReportOnlyTheirCodes :
    (∃ t, exec .pace (machine f1 []) = .next t) ∧ 4 ∈ commandErrCodes .configure ∧
      (∀ i, decode 0x08#32 ≠ .ok i) ∧ ∃ t, executeCommand 0x08#32 (machine f1 []) = .next t :=
  ⟨⟨_, rfl⟩, by decide, fun i => by cases i <;> decide, ⟨_, rfl⟩⟩

theorem witness_ErrorsStayUntilCleared :
    ({ f1 with err := 3#4 } : Block).err ≠ 0#4 ∧
      ∃ t, step (machine { f1 with err := 3#4 } [PortCycle.command 0x06#32]) = .next t ∧ t.st.err = 0#4 :=
  ⟨by decide, _, rfl, rfl⟩

theorem witness_FailuresArePrecise :
    ∃ t, executeCommand 0x02#32 (machine Block.reset []) = .next t ∧ t.st.err ≠ Block.reset.err ∧
      t.st.err.toNat ∈ [2, 3, 4] := ⟨_, rfl, by decide, by decide⟩

theorem witness_FormatShowsItsFields : f1.bps.toNat ≤ 2 ∧ f4.channels.toNat ≤ 2 ∧ f1.channels.toNat ≤ 2 := by decide

theorem witness_OtherOffsetsReadTheirComponents : 0x2C ≤ (0x2C#8 : Offset).toNat ∧ 0x2C ≤ (0xFC#8 : Offset).toNat := by
  decide

theorem witness_EveryComponentIsReadable : ∀ off : Offset, off.toNat % 4 = 0 → f1.view off = f1.view off :=
  fun _ _ => rfl

/-- A misaligned read, a narrow write, and a legal read without strobes. -/
theorem witness_IllegalAccessIsABusError :
    ((PortCycle.read 0x06#8).rstN = true ∧ (PortCycle.read 0x06#8).busSel = true ∧
        (PortCycle.read 0x06#8).busAddr.toNat % 4 ≠ 0) ∧
      (({ PortCycle.write 0x14#8 1#32 with busStrb := 0b0111#4 } : PortCycle).busWrite = true ∧
        ({ PortCycle.write 0x14#8 1#32 with busStrb := 0b0111#4 } : PortCycle).busStrb ≠ 0b1111#4) ∧
      ((PortCycle.read 0xFC#8).rstN = true ∧ (PortCycle.read 0xFC#8).busSel = true ∧
        ¬((PortCycle.read 0xFC#8).busAddr.toNat % 4 ≠ 0 ∨
          (PortCycle.read 0xFC#8).busWrite = true ∧ (PortCycle.read 0xFC#8).busStrb ≠ 0b1111#4)) := by decide

theorem witness_ReadAnswersAndChangesNothing :
    (machine f1 [PortCycle.read 0x24#8]).inputs = PortCycle.read 0x24#8 :: [] ∧ (PortCycle.read 0x24#8).rstN = true ∧
      (PortCycle.read 0x24#8).busSel = true ∧ (PortCycle.read 0x24#8).busWrite = false ∧
      (PortCycle.read 0x24#8).busAddr.toNat % 4 = 0 := by decide

/-- The hypotheses on the cycle, and an offset for each clause: the five that act, and ignored ones at the edges. -/
theorem witness_WriteGoesByOffset :
    (∀ off ∈ [0x00#8, 0x08#8, 0x0C#8, 0x10#8, 0x14#8, 0x04#8, 0x18#8, 0x2C#8, 0xFC#8],
      (PortCycle.write off 1#32).rstN = true ∧ (PortCycle.write off 1#32).busSel = true ∧
        (PortCycle.write off 1#32).busWrite = true ∧ (PortCycle.write off 1#32).usTick = false ∧ off.toNat % 4 = 0 ∧
        (PortCycle.write off 1#32).busStrb = 0b1111#4) ∧
      (PortCycle.write 0x02#8 1#32).busAddr.toNat % 4 ≠ 0 ∧
      0x04#8 ∉ [0x00#8, 0x08#8, 0x0C#8, 0x10#8, 0x14#8] ∧ 0xFC#8 ∉ [0x00#8, 0x08#8, 0x0C#8, 0x10#8, 0x14#8] := by decide

theorem witness_SameCycleIsAccessThenTick :
    PortCycle.reset.rstN = false ∧
      ∃ c : PortCycle, c.rstN = true ∧ c.usTick = true ∧ c.illegalAccess = false ∧ c.busSel = true :=
  ⟨rfl, { PortCycle.command 0x03#32 with usTick := true }, by decide⟩

theorem witness_ResetCycleSetsEveryComponent :
    ∃ c : PortCycle, (machine f1 [c]).inputs = c :: [] ∧ c.rstN = false ∧ c.busSel = true ∧ c.busWrite = false ∧
      c.usTick = true :=
  ⟨{ PortCycle.read 0x04#8 with rstN := false, usTick := true }, by decide⟩

theorem witness_LegalHostsRunForEver :
    ∀ c ∈ (machine f1 [PortCycle.command 0x03#32, PortCycle.tick, PortCycle.read 0x24#8]).inputs,
      c.illegalAccess = false := by decide

theorem witness_HostAccessesReachTheirOffset :
    Config.base + 256 < Config.base ∨ Config.base + 256 ≤ Config.base + 256 := .inr (le_refl _)

theorem witness_IdleCyclesChangeNothing :
    (machine f1 []).inputs = [] ∧ (machine f1 [PortCycle.idle]).inputs = PortCycle.idle :: [] := by decide

theorem witness_DerivedValuesWaitForConfigure :
    ∃ t, step (machine f1 [PortCycle.write 0x08#8 8#32]) = .next t := ⟨_, rfl⟩

/-- A configured block with a delay running and an error meets the invariants, and a step goes on from it. -/
theorem witness_EveryStepKeepsTheInvariants :
    Invariants { f1 with paceCount := 125#32, err := 4#4 } 8000#32 ∧
      ∃ t, step (machine { f1 with paceCount := 125#32, err := 4#4 } [PortCycle.tick]) = .next t :=
  ⟨⟨by decide, by decide, by decide, by decide, .inl rfl, by decide⟩, _, rfl⟩

theorem witness_ReachableStatesMeetTheInvariants :
    ∃ t, Sys2Proof.core.run 2
      { State.reset with inputs := [PortCycle.write 0x08#8 16#32, PortCycle.command 0x01#32] } = .next t := ⟨_, rfl⟩

theorem witness_HostFormsAreTheirTransactions :
    (∃ d, step (machine f1 [PortCycle.write RegName.dataIn.off 5#32]) = .next d) ∧
      ((HostRun.start (machine f1 [])).h[(3 : Fin 8)] = 0#32) ∧
      ∃ d, exec .pace { machine f1 [] with reply := some { rdata := none, err := false } } = .next d :=
  ⟨⟨_, rfl⟩, by decide, ⟨_, rfl⟩⟩

/-- Both branches, in the program `cmd PACE` with a `wait_idle` after it: three host steps leave an idle block at line 4,
past the loop, and a busy block at line 1, its first line. -/
theorem witness_WaitIdleLoopsWhileBusy :
    ∀ row ∈ [({ f1 with paceCount := 0#32 }, 4), ({ f1 with paceCount := 125#32 }, 1)],
      ({ HostRun.start (machine row.1 []) with line := 1 } : HostRun).line = [HostInstr.cmd .pace].length ∧
      ∃ y1 y2 y3 : HostRun,
        HostRun.hostStep ([HostInstr.cmd .pace] ++ waitIdle 1 ++ [])
          { HostRun.start (machine row.1 []) with line := 1 } = .next y1 ∧
        y1.hostStep ([HostInstr.cmd .pace] ++ waitIdle 1 ++ []) = .next y2 ∧
        y2.hostStep ([HostInstr.cmd .pace] ++ waitIdle 1 ++ []) = .next y3 ∧ y3.line = row.2 := by
  intro row h
  simp only [List.mem_cons, List.not_mem_nil, or_false] at h
  rcases h with rfl | rfl <;> exact ⟨rfl, _, _, _, rfl, rfl, rfl, by decide⟩

theorem witness_PartialStridesAreDropped : 0 < 2 ∧ [1#8, 2#8] ∈ wholeStrides 2 [1#8, 2#8, 3#8] := by decide

end Sys2Proof.Tests
end

section
/-!
PROOFS. The register window as numbers and as stores: the fields of `STATUS` and `FORMAT`, what the window tells of the
block behind it, and the read-back of the RW registers (10_state.md R21 to R34, 20_memory.md R59).
-/

namespace Sys2Proof.Machine

/-! ## Concatenation and zero extension as arithmetic -/

/-- A concatenation as a number: the high part times the weight of the low part, plus the low part. -/
theorem toNat_append_eq_add {m n : Nat} (x : BitVec m) (y : BitVec n) :
    (x ++ y).toNat = x.toNat * 2 ^ n + y.toNat := by
  rw [BitVec.toNat_append, ← Nat.shiftLeft_add_eq_or_of_lt y.isLt, Nat.shiftLeft_eq]

/-- A register that shows a component in its low bits shows all of the component. -/
theorem setWidth_injective {w v : Nat} (hwv : w ≤ v) {x y : BitVec w} (h : x.setWidth v = y.setWidth v) : x = y := by
  have hback := congrArg (BitVec.setWidth w) h
  simpa only [BitVec.setWidth_setWidth_of_le _ hwv, BitVec.setWidth_eq] using hback

/-! ## The fields of `STATUS` and `FORMAT` -/

theorem Block.busy_toNat (b : Block) : b.busy.toNat = if b.paceCount = 0#32 then 0 else 1 := by
  split
  · next h => rw [b.busy_eq_false.mpr h]; rfl
  · next h => rw [b.busy_eq_true.mpr h]; rfl

theorem Block.status_toNat (b : Block) :
    b.status.toNat = b.cfgValid.toNat + 2 * b.busy.toNat + 16 * b.err.toNat := by
  simp only [Block.status, toNat_append_eq_add, BitVec.toNat_ofNat, BitVec.toNat_ofBool]
  omega

/-- The stride fits its 3-bit field where the channel count and the sample size are those of 10_state.md R38. -/
theorem Block.stride_field_toNat {b : Block} (hbps : b.bps.toNat ≤ 2) (hch : b.channels.toNat ≤ 2) :
    (b.stride.setWidth 3).toNat = b.channels.toNat * b.bps.toNat := by
  have hfits : b.channels.toNat * b.bps.toNat ≤ 2 * 2 := Nat.mul_le_mul hch hbps
  have hbps16 : b.bps.toNat % 2 ^ 4 = b.bps.toNat := by omega
  have hch16 : b.channels.toNat % 2 ^ 4 = b.channels.toNat := by omega
  simp only [Block.stride, BitVec.toNat_setWidth, BitVec.toNat_mul, hbps16, hch16]
  omega

/-- `FORMAT` in every block, with its stride field as it stands. -/
theorem Block.format_toNat (b : Block) :
    b.format.toNat = b.bps.toNat + 16 * b.channels.toNat + 256 * (b.stride.setWidth 3).toNat +
      4096 * Config.chselPrefix.toNat := by
  simp only [Block.format, toNat_append_eq_add, BitVec.toNat_ofNat]
  omega

/-! ## What the window tells of the block -/

theorem Block.eq_of_status_eq {a b : Block} (h : a.status = b.status) : a.err = b.err ∧ a.cfgValid = b.cfgValid := by
  have herr : a.err = b.err := by rw [← a.status_err, h, b.status_err]
  have hvalid : BitVec.ofBool a.cfgValid = BitVec.ofBool b.cfgValid := by
    rw [← a.status_cfgValid, h, b.status_cfgValid]
  exact ⟨herr, BitVec.ofBool_eq_iff_eq.mp hvalid⟩

theorem Block.eq_of_format_eq {a b : Block} (h : a.format = b.format) : a.bps = b.bps ∧ a.channels = b.channels := by
  have hnat := congrArg BitVec.toNat h
  rw [a.format_toNat, b.format_toNat] at hnat
  constructor <;> apply BitVec.eq_of_toNat_eq <;> omega

theorem Block.view_reserved (b : Block) {off : Offset} (h : 0x2C ≤ off.toNat) : b.view off = 0#32 := by
  have hne : ∀ k : Offset, k.toNat < 0x2C → off ≠ k := by
    rintro k hk rfl
    omega
  simp [Block.view, hne]

/-! ## Storing twice -/

theorem Block.store_of_not_rw (b : Block) {off : Offset} (v : Word) (h08 : off ≠ 0x08#8) (h0C : off ≠ 0x0C#8)
    (h10 : off ≠ 0x10#8) (h14 : off ≠ 0x14#8) : b.store off v = b := by
  simp [Block.store, h08, h0C, h10, h14]

theorem Block.store_store (b : Block) (off : Offset) (v : Word) : (b.store off v).store off v = b.store off v := by
  by_cases h08 : off = 0x08#8
  · subst h08; simp
  by_cases h0C : off = 0x0C#8
  · subst h0C; simp
  by_cases h10 : off = 0x10#8
  · subst h10; simp
  by_cases h14 : off = 0x14#8
  · subst h14; simp
  · rw [Block.store_of_not_rw _ v h08 h0C h10 h14]

/-! ## The statements -/

/-- Settles O40, from `STATUS` as a sum of its fields. -/
theorem statusShowsItsFields : Obligations.StatusShowsItsFields := by
  intro b
  rw [Block.view_status, Block.status_toNat, Block.busy_toNat]

/-- Settles O41, from `FORMAT` as a sum of its fields and the stride that fits its field. -/
theorem formatShowsItsFields : Obligations.FormatShowsItsFields := by
  intro b hbps hch
  rw [Block.view_format, Block.format_toNat, Block.stride_field_toNat hbps hch]

/-- Settles O43: each component is read back from the register that shows it. -/
theorem everyComponentIsReadable : Obligations.EveryComponentIsReadable := by
  intro a b h
  have hcfgBits : a.cfgBits = b.cfgBits := setWidth_injective (by decide) (h 0x08#8 rfl)
  have hcfgRate : a.cfgRate = b.cfgRate := h 0x0C#8 rfl
  have hcfgBrate : a.cfgBrate = b.cfgBrate := h 0x10#8 rfl
  have hdataIn : a.dataIn = b.dataIn := h 0x14#8 rfl
  have hframe : a.frame = b.frame := setWidth_injective (by decide) (h 0x18#8 rfl)
  have hinterval : a.interval = b.interval := h 0x1C#8 rfl
  have hpaceCount : a.paceCount = b.paceCount := h 0x24#8 rfl
  have hword : a.word = b.word := setWidth_injective (by decide) (h 0x28#8 rfl)
  obtain ⟨herr, hcfgValid⟩ := Block.eq_of_status_eq (h 0x04#8 rfl)
  obtain ⟨hbps, hchannels⟩ := Block.eq_of_format_eq (h 0x20#8 rfl)
  cases a
  cases b
  simp_all

/-- Settles O42, register by register; the offsets past the map by their distance from it. -/
theorem otherOffsetsReadTheirComponents : Obligations.OtherOffsetsReadTheirComponents := fun b =>
  ⟨b.view_cfgBits, b.view_cfgRate, b.view_cfgBrate, b.view_dataIn, b.view_frame, b.view_interval, b.view_paceCount,
    b.view_word, b.view_cmd, fun _ h => b.view_reserved h⟩

/-- Settles O47: read-back register by register, and the repeated store by `Block.store_store`. -/
theorem storedValuesReadBack : Obligations.StoredValuesReadBack := by
  intro b v
  refine ⟨?wide, ?bits, fun off => b.store_store off v⟩
  case wide => simp
  case bits =>
    rw [Block.store_at_cfgBits, Block.view_cfgBits, BitVec.toNat_setWidth, BitVec.extractLsb'_toNat]
    omega

end Sys2Proof.Machine
end

section
/-!
PROOFS. The six invariants of 10_state.md R38: one preservation lemma per operation on the block, then one for the
commands, one for a cycle's access, one for the step, and the induction over a run.
-/

namespace Sys2Proof.Machine

/-! ## The DAC word -/

/-- The sum of 41_convert.md R125 never carries: it puts the channel-select bits in front of the code. -/
theorem dacWord_eq_append (chsel : BitVec 4) (code : Code) : dacWord chsel code = chsel ++ code := by
  apply BitVec.eq_of_toNat_eq
  rw [toNat_append_eq_add]
  simp only [dacWord, BitVec.toNat_add, BitVec.toNat_shiftLeft, BitVec.toNat_setWidth, Nat.shiftLeft_eq]
  omega

/-- The top four bits of a DAC word are its channel-select bits. -/
theorem dacWord_extract_chsel (chsel : BitVec 4) (code : Code) : (dacWord chsel code).extractLsb' 12 4 = chsel := by
  rw [dacWord_eq_append, BitVec.extractLsb'_append_eq_left]

/-! ## Each operation on the block -/

theorem ErrCode.code_le (e : ErrCode) : e.code.toNat ≤ 4 := by
  cases e <;> decide

theorem Invariants.reset (rate : Word) : Invariants Block.reset rate where
  unconfigured := by simp
  configured := by simp
  delay := by simp
  frameSwapped := by decide
  wordPrefixed := .inl rfl
  errKnown := by simp

section
variable {b : Block} {rate : Word}

theorem Invariants.fail (h : Invariants b rate) (e : ErrCode) : Invariants (b.fail e) rate :=
  { h with errKnown := e.code_le }

theorem Invariants.clearErr (h : Invariants b rate) : Invariants b.clearErr rate :=
  { h with errKnown := by simp }

theorem Invariants.assemble (h : Invariants b rate) (code : Code) : Invariants (b.assemble code) rate :=
  { h with
    frameSwapped := rfl
    wordPrefixed := .inr (dacWord_extract_chsel _ code) }

theorem Invariants.startDelay (h : Invariants b rate) (hv : b.cfgValid = true) : Invariants b.startDelay rate :=
  { h with delay := fun _ => ⟨hv, Nat.le_refl _⟩ }

theorem Invariants.stopDelay (h : Invariants b rate) : Invariants b.stopDelay rate :=
  { h with delay := by simp }

/-- A tick only shortens a running delay. -/
theorem Invariants.tick (h : Invariants b rate) : Invariants b.tick rate where
  unconfigured := by simpa using h.unconfigured
  configured := by simpa using h.configured
  delay := by
    intro hrun
    have hwas : b.paceCount ≠ 0#32 := by
      intro hz
      simp [hz] at hrun
    obtain ⟨hv, hle⟩ := h.delay hwas
    rw [Block.tick_cfgValid, Block.tick_interval, Block.tick_paceCount_toNat]
    exact ⟨hv, by omega⟩
  frameSwapped := by simpa using h.frameSwapped
  wordPrefixed := by simpa using h.wordPrefixed
  errKnown := by simpa using h.errKnown

/-- No invariant speaks of the staged fields or of `DATA_IN`. -/
theorem Invariants.store (h : Invariants b rate) (off : Offset) (v : Word) : Invariants (b.store off v) rate where
  unconfigured := by simpa using h.unconfigured
  configured := by simpa using h.configured
  delay := by simpa using h.delay
  frameSwapped := by simpa using h.frameSwapped
  wordPrefixed := by simpa using h.wordPrefixed
  errKnown := by simpa using h.errKnown

/-- An accepted format: the staged rate is the one latched from now on. An idle pacer has no delay that the new interval
would have to bound. -/
theorem Invariants.accept (h : Invariants b rate) {n ch : BitVec 2} {us : Word} (hidle : b.busy = false)
    (hd : deriveFormat b.cfgBits b.cfgRate b.cfgBrate = some (n, ch, us)) :
    Invariants (b.accept n ch us) b.cfgRate := by
  obtain ⟨hrate, hn, hch, rfl⟩ := deriveFormat_some hd
  have hinterval : (sampleInterval b.cfgRate).toNat = 1000000 / b.cfgRate.toNat := by
    simp [sampleInterval]
  exact
    { h with
      unconfigured := by simp
      configured := fun _ => ⟨hn, hch, hrate, hinterval⟩
      delay := fun hrun => absurd (b.busy_eq_false.mp hidle) hrun }

theorem Invariants.reject (h : Invariants b rate) (hidle : b.busy = false) : Invariants b.reject rate :=
  { h with
    unconfigured := by simp
    configured := by simp
    delay := fun hrun => absurd (b.busy_eq_false.mp hidle) hrun
    errKnown := by simp }

end

/-! ## Each command -/

theorem exec_nop (s : State) : exec .nop s = .next s := rfl
theorem exec_abort (s : State) : exec .abort s = .next { s with st := s.st.stopDelay } := rfl
theorem exec_clearErr (s : State) : exec .clearErr s = .next { s with st := s.st.clearErr } := rfl
theorem exec_softReset (s : State) : exec .softReset s = .next { s with st := Block.reset } := rfl
theorem exec_cvt16 (s : State) : exec .cvt16 s = .next { s with st := s.st.assemble (conv16 s.st.sample16) } := rfl
theorem exec_cvt8 (s : State) : exec .cvt8 s = .next { s with st := s.st.assemble (conv8 s.st.sample8) } := rfl

/-- CONFIGURE keeps the invariants, with the staged rate latched exactly where it succeeds. -/
theorem exec_configure_keeps_invariants {s t : State} {rate : Word} (h : Invariants s.st rate)
    (he : exec .configure s = .next t) :
    Invariants t.st (if s.st.configureSucceeds then s.st.cfgRate else rate) := by
  rcases execConfigure_cases s with ⟨hbusy, e⟩ | ⟨n, ch, us, hidle, hd, e⟩ | ⟨hidle, hd, e⟩ <;>
    rw [e] at he <;> cases he
  · have hfails : s.st.configureSucceeds = false := by simp [Block.configureSucceeds, hbusy]
    simpa [hfails] using h.fail .busy
  · have hsucceeds : s.st.configureSucceeds = true := by simp [Block.configureSucceeds, hidle, hd]
    simpa [hsucceeds] using h.accept hidle hd
  · have hfails : s.st.configureSucceeds = false := by simp [Block.configureSucceeds, hd]
    simpa [hfails] using h.reject hidle

/-- Every other command keeps the invariants with the rate latched before. -/
theorem exec_keeps_invariants {i : Instr} {s t : State} {rate : Word} (hi : i ≠ .configure) (h : Invariants s.st rate)
    (he : exec i s = .next t) : Invariants t.st rate := by
  cases i with
  | nop => rw [exec_nop] at he; cases he; exact h
  | configure => exact absurd rfl hi
  | convert =>
    rcases execConvert_cases s with ⟨-, e⟩ | ⟨-, e⟩ <;> rw [e] at he <;> cases he
    · exact h.fail _
    · exact h.assemble _
  | pace =>
    rcases execPace_cases s with ⟨-, e⟩ | ⟨-, -, e⟩ | ⟨hv, -, e⟩ <;> rw [e] at he <;> cases he
    · exact h.fail _
    · exact h.fail _
    · exact h.startDelay hv
  | convertPace =>
    rcases execConvertPace_cases s with ⟨-, e⟩ | ⟨-, -, e⟩ | ⟨hv, -, e⟩ <;> rw [e] at he <;> cases he
    · exact h.fail _
    · exact h.fail _
    · exact (h.assemble _).startDelay hv
  | abort => rw [exec_abort] at he; cases he; exact h.stopDelay
  | clearErr => rw [exec_clearErr] at he; cases he; exact h.clearErr
  | softReset => rw [exec_softReset] at he; cases he; exact Invariants.reset rate
  | cvt16 => rw [exec_cvt16] at he; cases he; exact h.assemble _
  | cvt8 => rw [exec_cvt8] at he; cases he; exact h.assemble _

/-! ## The latched rate, by the cycle -/

/-- The rate latched once the cycle `c` has acted on the block `b`. -/
def rateAfterCycle (c : PortCycle) (b : Block) (rate : Word) : Word :=
  if c.runs .configure && b.configureSucceeds then b.cfgRate else rate

theorem rateAfterCycle_of_runs {c : PortCycle} (h : c.runs .configure = true) (b : Block) (rate : Word) :
    rateAfterCycle c b rate = if b.configureSucceeds then b.cfgRate else rate := by
  simp [rateAfterCycle, h]

theorem rateAfterCycle_of_not_runs {c : PortCycle} (h : c.runs .configure ≠ true) (b : Block) (rate : Word) :
    rateAfterCycle c b rate = rate := by
  simp [rateAfterCycle, h]

/-- The history value of log 14 is the one of the cycle the step takes. -/
theorem latchedRate_eq_rateAfterCycle (s : State) (rate : Word) :
    latchedRate s rate = rateAfterCycle s.nextCycle.1 s.st rate := by
  obtain ⟨b, inputs, reply⟩ := s
  cases inputs with
  | nil =>
    have hidle : PortCycle.idle.runs .configure ≠ true := by decide
    exact (rateAfterCycle_of_not_runs hidle b rate).symm
  | cons c rest => rfl

/-! ## A cycle's access, the step and the run -/

/-- A legal write to `CMD` keeps the invariants: CONFIGURE, another command, or an illegal word. -/
theorem executeCommand_keeps_invariants {c : PortCycle} {s t : State} {rate : Word} (hrst : c.rstN = true)
    (hsel : c.busSel = true) (hlegal : c.legal = true) (hwrite : c.busWrite = true) (haddr : c.busAddr = 0x00#8)
    (h : Invariants s.st rate) (he : executeCommand c.busWdata s = .next t) :
    Invariants t.st (rateAfterCycle c s.st rate) := by
  rcases executeCommand_cases c.busWdata s with ⟨i, hdec, e⟩ | ⟨err, hdec, e⟩ <;> rw [e] at he
  · by_cases hi : i = .configure
    · subst hi
      rw [rateAfterCycle_of_runs (PortCycle.runs_of hrst hsel hlegal hwrite haddr hdec)]
      exact exec_configure_keeps_invariants h he
    · have hruns : c.runs .configure ≠ true := by
        intro hr
        obtain ⟨-, -, -, -, -, hdec'⟩ := PortCycle.runs_spec hr
        exact hi (Except.ok.inj (hdec.symm.trans hdec'))
      rw [rateAfterCycle_of_not_runs hruns]
      exact exec_keeps_invariants hi h he
  · have hruns : c.runs .configure ≠ true := by
      intro hr
      obtain ⟨-, -, -, -, -, hdec'⟩ := PortCycle.runs_spec hr
      cases hdec.symm.trans hdec'
    cases he
    rw [rateAfterCycle_of_not_runs hruns]
    exact h.fail _

/-- The access of a cycle out of reset keeps the invariants. -/
theorem accessEffect_keeps_invariants {c : PortCycle} {s t : State} {rate : Word} (hrst : c.rstN = true)
    (h : Invariants s.st rate) (he : accessEffect c s = .next t) : Invariants t.st (rateAfterCycle c s.st rate) := by
  rcases accessEffect_cases c s with ⟨hsel, hlegal, hwrite, haddr, e⟩ | ⟨-, -, -, haddr, e⟩ | ⟨hnone, e⟩ <;>
    rw [e] at he
  · exact executeCommand_keeps_invariants hrst hsel hlegal hwrite haddr h he
  · have hruns : c.runs .configure ≠ true := by
      intro hr
      obtain ⟨-, -, -, -, haddr', -⟩ := PortCycle.runs_spec hr
      exact haddr haddr'
    cases he
    rw [rateAfterCycle_of_not_runs hruns]
    exact h.store _ _
  · have hruns : c.runs .configure ≠ true := by
      intro hr
      obtain ⟨-, hsel, hlegal, hwrite, -, -⟩ := PortCycle.runs_spec hr
      simp [hsel, hlegal, hwrite] at hnone
    cases he
    rw [rateAfterCycle_of_not_runs hruns]
    exact h

/-- A step: the reset values, or the access's block and perhaps its tick. -/
theorem step_keeps_invariants {s t : State} {rate : Word} (h : Invariants s.st rate) (hs : step s = .next t) :
    Invariants t.st (latchedRate s rate) := by
  rw [latchedRate_eq_rateAfterCycle]
  rcases step_next_cases hs with ⟨-, hst, -⟩ | ⟨hrst, -, -, q, b, hq, ha, hst⟩ <;> rw [hst]
  · exact Invariants.reset _
  · rw [← hq] at h ⊢
    have hb : Invariants b (rateAfterCycle s.nextCycle.1 q.st rate) := accessEffect_keeps_invariants hrst h ha
    split
    · exact hb.tick
    · exact hb

theorem latchedAfter_succ_of_next {s t : State} (hs : step s = .next t) (n : Nat) (rate : Word) :
    latchedAfter (n + 1) s rate = latchedAfter n t (latchedRate s rate) := by
  simp only [latchedAfter, hs]

/-- Every run keeps the invariants, with the rate that its steps latch on the way. -/
theorem run_keeps_invariants (n : Nat) {s t : State} {rate : Word} (h : Invariants s.st rate)
    (hrun : Sys2Proof.core.run n s = .next t) : Invariants t.st (latchedAfter n s rate) := by
  induction n generalizing s rate with
  | zero => cases hrun; exact h
  | succ n ih =>
    obtain ⟨u, hs, hrest⟩ := run_succ_next hrun
    rw [latchedAfter_succ_of_next hs]
    exact ih (step_keeps_invariants h hs) hrest

/-! ## The statements -/

/-- Settles O55. -/
theorem resetMeetsTheInvariants : Obligations.ResetMeetsTheInvariants := Invariants.reset

/-- Settles O56, from the case analysis of a step and one preservation lemma per operation. -/
theorem everyStepKeepsTheInvariants : Obligations.EveryStepKeepsTheInvariants := fun _ _ _ => step_keeps_invariants

/-- Settles O57: the reset block meets the invariants, and a run keeps them. -/
theorem reachableStatesMeetTheInvariants : Obligations.ReachableStatesMeetTheInvariants := fun n _ _ rate =>
  run_keeps_invariants n (Invariants.reset rate)

end Sys2Proof.Machine
end

section
/-!
PROOFS. The register bus (20_memory.md R50, R55 to R57): which accesses are legal, what a cycle's access answers and does,
the step of a cycle out of reset by the kind of its access, and the host's decode of `BASE`.
-/

namespace Sys2Proof.Machine

/-! ## Legal accesses -/

/-- The two low address bits are those of 20_memory.md R55's alignment. -/
theorem extract_low_two_eq_zero_iff (off : Offset) : off.extractLsb' 0 2 = 0b00#2 ↔ off.toNat % 4 = 0 := by
  rw [BitVec.toNat_eq, BitVec.extractLsb'_toNat]
  simp

section
variable {c : PortCycle}

theorem PortCycle.legal_eq_true_iff :
    c.legal = true ↔ c.busAddr.toNat % 4 = 0 ∧ (c.busWrite = true → c.busStrb = 0b1111#4) := by
  rw [← extract_low_two_eq_zero_iff]
  simp [PortCycle.legal, imp_iff_not_or]

theorem PortCycle.legal_eq_false_iff :
    c.legal = false ↔ c.busAddr.toNat % 4 ≠ 0 ∨ c.busWrite = true ∧ c.busStrb ≠ 0b1111#4 := by
  rw [← Bool.not_eq_true, PortCycle.legal_eq_true_iff, not_and_or, Classical.not_imp]

theorem PortCycle.illegalAccess_of_not_legal (hrst : c.rstN = true) (hsel : c.busSel = true)
    (hlegal : c.legal = false) : c.illegalAccess = true := by
  simp [PortCycle.illegalAccess, hrst, hsel, hlegal]

theorem PortCycle.illegalAccess_of_legal (hlegal : c.legal = true) : c.illegalAccess = false := by
  simp [PortCycle.illegalAccess, hlegal]

/-! ## What an access answers and does -/

theorem busReply_of_not_legal (b : Block) (hrst : c.rstN = true) (hsel : c.busSel = true) (hlegal : c.legal = false) :
    busReply b c = some { rdata := if c.busWrite then none else some 0#32, err := true } := by
  simp [busReply, hsel, hlegal, PortCycle.illegalAccess_of_not_legal hrst hsel hlegal]

theorem busReply_of_legal (b : Block) (hrst : c.rstN = true) (hsel : c.busSel = true) (hlegal : c.legal = true) :
    busReply b c = some { rdata := if c.busWrite then none else some (b.view c.busAddr), err := false } := by
  simp [busReply, hrst, hsel, hlegal, PortCycle.illegalAccess_of_legal hlegal]

theorem accessEffect_of_not_legal (s : State) (hlegal : c.legal = false) : accessEffect c s = .next s := by
  simp [accessEffect, hlegal]

theorem accessEffect_of_read (s : State) (hread : c.busWrite = false) : accessEffect c s = .next s := by
  simp [accessEffect, hread]

theorem accessEffect_of_write (s : State) (hsel : c.busSel = true) (hlegal : c.legal = true)
    (hwrite : c.busWrite = true) : accessEffect c s = writeRegister c.busAddr c.busWdata s := by
  simp [accessEffect, hsel, hlegal, hwrite]

end

theorem writeRegister_cmd (v : Word) (s : State) : writeRegister 0x00#8 v s = executeCommand v s := rfl

theorem writeRegister_of_ne_cmd {off : Offset} (hoff : off ≠ 0x00#8) (v : Word) (s : State) :
    writeRegister off v s = .next { s with st := s.st.store off v } := by
  simp [writeRegister, hoff]

/-! ## The step of a cycle out of reset -/

section
variable {s : State} {c : PortCycle} {rest : List PortCycle}

theorem step_of_illegalAccess (hin : s.inputs = c :: rest) (hill : c.illegalAccess = true) :
    step s = .fault (.busError c.busAddr) := by
  rw [step_eq_clockCycle, State.nextCycle_cons hin]
  rcases clockCycle_cases c { s with inputs := rest } with ⟨hrst, -⟩ | ⟨-, e⟩ | ⟨-, hok, -⟩
  · simp [PortCycle.illegalAccess, hrst] at hill
  · exact e
  · simp [hok] at hill

/-- Out of reset and without a bus error: the access's block, then the tick's, with the answer to the block before both. -/
theorem step_of_accessEffect {b : Block} (hin : s.inputs = c :: rest) (hrst : c.rstN = true)
    (hok : c.illegalAccess = false)
    (ha : accessEffect c { s with inputs := rest, reply := busReply s.st c } =
      .next { st := b, inputs := rest, reply := busReply s.st c }) :
    step s = .next { st := if c.usTick then b.tick else b, inputs := rest, reply := busReply s.st c } := by
  rw [step_eq_clockCycle, State.nextCycle_cons hin]
  rcases clockCycle_cases c { s with inputs := rest } with ⟨hr, -⟩ | ⟨hill, -⟩ | ⟨-, -, b', ha', e⟩
  · simp [hrst] at hr
  · simp [hok] at hill
  · cases ha.symm.trans ha'
    exact e

/-- Without a tick the step is the cycle's access. -/
theorem step_eq_accessEffect (hin : s.inputs = c :: rest) (hrst : c.rstN = true) (hok : c.illegalAccess = false)
    (htick : c.usTick = false) :
    step s = accessEffect c { s with inputs := rest, reply := busReply s.st c } := by
  obtain ⟨b, ha⟩ := accessEffect_commits c { s with inputs := rest, reply := busReply s.st c }
  rw [step_of_accessEffect hin hrst hok ha, ha]
  simp [htick]

/-- A legal write in a cycle without a tick does what its offset says, and is answered without an error. -/
theorem step_eq_writeRegister (hin : s.inputs = c :: rest) (hrst : c.rstN = true) (hsel : c.busSel = true)
    (hlegal : c.legal = true) (hwrite : c.busWrite = true) (htick : c.usTick = false) :
    step s = writeRegister c.busAddr c.busWdata
      { s with inputs := rest, reply := some { rdata := none, err := false } } := by
  rw [step_eq_accessEffect hin hrst (PortCycle.illegalAccess_of_legal hlegal) htick,
    accessEffect_of_write _ hsel hlegal hwrite, busReply_of_legal s.st hrst hsel hlegal]
  simp [hwrite]

end

/-! ## The host's decode of `BASE` -/

/-- `BASE` is 256-byte aligned (20_memory.md R60), so the low 8 bits of an address of the window are its offset. -/
theorem ofNat_base_add (off : Offset) : BitVec.ofNat 8 (Config.base + off.toNat) = off := by
  apply BitVec.eq_of_toNat_eq
  rw [BitVec.toNat_ofNat, Config.base]
  omega

theorem inWindow_base_add (off : Offset) : inWindow (Config.base + off.toNat) = true := by
  have hoff : off.toNat < 256 := off.isLt
  simp [inWindow, hoff]

theorem inWindow_eq_false {addr : Nat} (h : addr < Config.base ∨ Config.base + 256 ≤ addr) :
    inWindow addr = false := by
  simp only [inWindow, decide_eq_false_iff_not]
  omega

theorem PortCycle.memRead_base_add (off : Offset) :
    PortCycle.memRead (Config.base + off.toNat) = PortCycle.read off := by
  rw [PortCycle.memRead, ofNat_base_add, inWindow_base_add]
  rfl

theorem PortCycle.memWrite_base_add (off : Offset) (v : Word) :
    PortCycle.memWrite (Config.base + off.toNat) v = PortCycle.write off v := by
  rw [PortCycle.memWrite, ofNat_base_add, inWindow_base_add]
  rfl

/-! ## The statements -/

/-- Settles O44: an illegal access is the fault, and a legal one completes with the answer of `busReply_of_legal`. -/
theorem illegalAccessIsABusError : Obligations.IllegalAccessIsABusError := by
  intro s c rest hin hrst hsel
  rw [← PortCycle.legal_eq_false_iff]
  refine ⟨fun hillegal => ?illegal, fun hlegal => ?legal⟩
  case illegal =>
    exact ⟨step_of_illegalAccess hin (PortCycle.illegalAccess_of_not_legal hrst hsel hillegal),
      accessEffect_of_not_legal s hillegal, busReply_of_not_legal s.st hrst hsel hillegal⟩
  case legal =>
    rw [Bool.not_eq_false] at hlegal
    obtain ⟨b, ha⟩ := accessEffect_commits c { s with inputs := rest, reply := busReply s.st c }
    exact ⟨_, _, step_of_accessEffect hin hrst (PortCycle.illegalAccess_of_legal hlegal) ha,
      busReply_of_legal s.st hrst hsel hlegal⟩

/-- Settles O45: an aligned read is legal, its access leaves the block, and its answer is the view before the tick. -/
theorem readAnswersAndChangesNothing : Obligations.ReadAnswersAndChangesNothing := by
  intro s c rest hin hrst hsel hread haligned
  have hlegal : c.legal = true := PortCycle.legal_eq_true_iff.mpr ⟨haligned, by simp [hread]⟩
  rw [step_of_accessEffect hin hrst (PortCycle.illegalAccess_of_legal hlegal) (accessEffect_of_read _ hread),
    busReply_of_legal s.st hrst hsel hlegal]
  simp [hread]

/-- Settles O46: a legal write is `writeRegister` at its offset, and the stores go register by register. -/
theorem writeGoesByOffset : Obligations.WriteGoesByOffset := by
  rintro s q c rest hin hrst hsel hwrite htick rfl
  refine ⟨fun hbad => ?illegal, fun haligned hstrobes => ?legal⟩
  case illegal =>
    have hillegal : c.legal = false := PortCycle.legal_eq_false_iff.mpr (hbad.imp_right fun hs => ⟨hwrite, hs⟩)
    exact step_of_illegalAccess hin (PortCycle.illegalAccess_of_not_legal hrst hsel hillegal)
  case legal =>
    have hlegal : c.legal = true := PortCycle.legal_eq_true_iff.mpr ⟨haligned, fun _ => hstrobes⟩
    rw [step_eq_writeRegister hin hrst hsel hlegal hwrite htick]
    refine ⟨?cmd, ?cfgBits, ?cfgRate, ?cfgBrate, ?dataIn, ?ignored⟩
    case ignored =>
      intro hoff
      simp only [List.mem_cons, List.not_mem_nil, or_false, not_or] at hoff
      obtain ⟨h00, h08, h0C, h10, h14⟩ := hoff
      rw [writeRegister_of_ne_cmd h00, Block.store_of_not_rw _ _ h08 h0C h10 h14]
    case cmd => intro hoff; rw [hoff, writeRegister_cmd]
    all_goals
      intro hoff
      rw [hoff, writeRegister_of_ne_cmd (by decide)]
      simp

/-- Settles O52: an address of the window is `BASE` and an offset, and any other address is not decoded. -/
theorem hostAccessesReachTheirOffset : Obligations.HostAccessesReachTheirOffset :=
  ⟨fun off v => ⟨PortCycle.memRead_base_add off, PortCycle.memWrite_base_add off v⟩,
    fun _ _ hout => ⟨inWindow_eq_false hout, inWindow_eq_false hout⟩⟩

end Sys2Proof.Machine
end

section
/-!
PROOFS. Command words (30_encoding.md R70, R73 to R75): the fields of a word, the decoder as the inverse of the encoder,
the legal words, and the execution of a word written to `CMD`.
-/

namespace Sys2Proof

/-! ## The fields of a command word -/

/-- `RSV` and `OP` are all of a command word (30_encoding.md R70). -/
theorem CommandWord.append_ofWord (v : Word) : (ofWord v).rsv ++ (ofWord v).op = v :=
  BitVec.extractLsb'_append_extractLsb'

theorem CommandWord.rsv_encode (i : Instr) : (ofWord (encode i)).rsv = 0#24 := by
  cases i <;> rfl

/-- The defined opcodes, as the two runs of values that 30_encoding.md R75 leaves. -/
theorem CommandWord.opcodeDefined_iff (c : CommandWord) :
    c.opcodeDefined = true ↔ c.op.toNat < 0x08 ∨ c.op.toNat = 0x10 ∨ c.op.toNat = 0x11 := by
  simp only [opcodeDefined, BitVec.le_def, BitVec.toNat_ofNat, Bool.not_eq_true', Bool.or_eq_false_iff,
    decide_eq_false_iff_not]
  omega

theorem CommandWord.opcodeDefined_encode (i : Instr) : (ofWord (encode i)).opcodeDefined = true := by
  cases i <;> rfl

theorem CommandWord.wellFormed_iff (c : CommandWord) :
    c.wellFormed = true ↔ c.rsv = 0#24 ∧ c.opcodeDefined = true := by
  simp [wellFormed, reservedClear]

/-! ## The decoder -/

/-- A row of the opcode map has the opcode of its command's word. -/
theorem op_eq_of_decodeOpcode {op : BitVec 8} {i : Instr} (h : decodeOpcode op = some i) :
    op = (CommandWord.ofWord (encode i)).op := by
  unfold decodeOpcode at h
  split_ifs at h
  all_goals cases h; exact ‹op = _›

/-- The opcode map has a row for every opcode that is not reserved. -/
theorem exists_decodeOpcode {c : CommandWord} (h : c.opcodeDefined = true) : ∃ i, decodeOpcode c.op = some i := by
  rw [CommandWord.opcodeDefined_iff] at h
  unfold decodeOpcode
  split_ifs
  case neg => bv_omega
  all_goals exact ⟨_, rfl⟩

/-- The decoder's two checks: `RSV`, then the opcode map. -/
theorem decode_eq_ok_iff (v : Word) (i : Instr) :
    decode v = .ok i ↔ (CommandWord.ofWord v).rsv = 0#24 ∧ decodeOpcode (CommandWord.ofWord v).op = some i := by
  unfold decode
  by_cases hrsv : (CommandWord.ofWord v).rsv = 0#24
  · cases hop : decodeOpcode (CommandWord.ofWord v).op <;> simp [hrsv]
  · simp [hrsv]

theorem decode_encode (i : Instr) : decode (encode i) = .ok i := by
  cases i <;> rfl

/-- A word that decodes has the two fields of its command's word, so it is that word. -/
theorem eq_encode_of_decode {v : Word} {i : Instr} (h : decode v = .ok i) : v = encode i := by
  obtain ⟨hrsv, hop⟩ := (decode_eq_ok_iff v i).mp h
  rw [← CommandWord.append_ofWord v, hrsv, op_eq_of_decodeOpcode hop, ← CommandWord.rsv_encode i,
    CommandWord.append_ofWord]

theorem decode_eq_ok_iff_eq_encode (v : Word) (i : Instr) : decode v = .ok i ↔ v = encode i :=
  ⟨eq_encode_of_decode, fun h => h ▸ decode_encode i⟩

/-- The words that decode are the legal ones of 30_encoding.md R75. -/
theorem wellFormed_iff_exists_decode (v : Word) :
    (CommandWord.ofWord v).wellFormed = true ↔ ∃ i, decode v = .ok i := by
  rw [CommandWord.wellFormed_iff]
  constructor
  · rintro ⟨hrsv, hop⟩
    obtain ⟨i, hi⟩ := exists_decodeOpcode hop
    exact ⟨i, (decode_eq_ok_iff v i).mpr ⟨hrsv, hi⟩⟩
  · rintro ⟨i, hi⟩
    rw [eq_encode_of_decode hi]
    exact ⟨CommandWord.rsv_encode i, CommandWord.opcodeDefined_encode i⟩

end Sys2Proof

namespace Sys2Proof.Machine

/-! ## The execution of a word written to `CMD` -/

/-- A word that is no command's word is the failure that writes 3 to `err` (30_encoding.md R74, R75). -/
theorem executeCommand_of_ne_encode {v : Word} (h : ∀ i, v ≠ encode i) (s : State) :
    executeCommand v s = .next { s with st := { s.st with err := 3#4 } } := by
  rcases executeCommand_cases v s with ⟨i, hdec, -⟩ | ⟨_, -, e⟩
  · exact absurd (eq_encode_of_decode hdec) (h i)
  · exact e

theorem executeCommand_of_decode {v : Word} {i : Instr} (h : decode v = .ok i) (s : State) :
    executeCommand v s = exec i s := by
  simp only [executeCommand, h]

/-- The word of a command is an opcode of one of the two runs of defined values, with nothing above it. -/
theorem encode_toNat_cases (i : Instr) :
    (encode i).toNat < 0x08 ∨ (encode i).toNat = 0x10 ∨ (encode i).toNat = 0x11 := by
  cases i <;> decide

/-! ## The statements -/

/-- Settles O2: the encoder's image is what the decoder accepts, and the legal words are those with a row. -/
theorem decodeAndEncodeAgree : Obligations.DecodeAndEncodeAgree :=
  ⟨decode_encode, fun _ _ => eq_encode_of_decode, wellFormed_iff_exists_decode⟩

/-- Settles O1: a command has one row in the list, and the word there is its `encode`. -/
theorem decodeAcceptsExactlyTheOpcodeMap : Obligations.DecodeAcceptsExactlyTheOpcodeMap := by
  intro v i
  rw [decode_eq_ok_iff_eq_encode]
  cases i <;> simp [encode]

/-- Settles O3: a word of either kind is out of the encoder's image. -/
theorem reservedEncodingsOnlySetErr : Obligations.ReservedEncodingsOnlySetErr := by
  intro v s hillegal
  apply executeCommand_of_ne_encode
  rintro i rfl
  have hcases := encode_toNat_cases i
  omega

/-- Settles O5: four words of the encoder, and two words for each refusal. -/
theorem sampleWordsDecode : Obligations.SampleWordsDecode :=
  ⟨decode_encode .configure, decode_encode .convertPace, decode_encode .softReset, decode_encode .cvt8,
    rfl, rfl, rfl, rfl⟩

/-- Settles O6: the cycle's access is a legal write to `CMD`, whose word runs the command that it names. -/
theorem stepRunsTheDecodedCommand : Obligations.StepRunsTheDecodedCommand := by
  intro s c rest i hin hrst hsel hwrite haddr hstrb hdec
  have hlegal : c.legal = true := PortCycle.legal_eq_true_iff.mpr ⟨by simp [haddr], fun _ => hstrb⟩
  have hreply : busReply s.st c = some { rdata := none, err := false } := by
    simp [busReply_of_legal s.st hrst hsel hlegal, hwrite]
  obtain ⟨b, hexec⟩ := exec_commits i { s with inputs := rest, reply := busReply s.st c }
  have haccess : accessEffect c { s with inputs := rest, reply := busReply s.st c } =
      .next { st := b, inputs := rest, reply := busReply s.st c } := by
    rw [accessEffect_of_write _ hsel hlegal hwrite, haddr, writeRegister_cmd, executeCommand_of_decode hdec, hexec]
  rw [step_of_accessEffect hin hrst (PortCycle.illegalAccess_of_legal hlegal) haccess, ← hreply]
  refine ⟨_, hexec, ?_⟩
  split <;> rfl

end Sys2Proof.Machine
end

section
/-!
PROOFS. The operands of the commands (30_encoding.md R72). A command is a function from block to block; for each, the
components outside its row's writes column stay, and two blocks that agree on its reads column go the same way.
-/

namespace Sys2Proof.Machine

/-! ## A command as a function of the block -/

/-- The block that a command leaves. Neither the presented cycles nor the last answer has a part in it
(`exec_eq_commandBlock`). -/
def commandBlock (i : Instr) (b : Block) : Block :=
  match exec i { st := b, inputs := [], reply := none } with
  | .next t => t.st
  | .fault _ => b
  | .refused _ => b

theorem exec_eq_commandBlock (i : Instr) (s : State) : exec i s = .next { s with st := commandBlock i s.st } := by
  cases i <;> rfl

section
variable (b : Block)

theorem commandBlock_cvt16 : commandBlock .cvt16 b = b.assemble (conv16 b.sample16) := rfl
theorem commandBlock_cvt8 : commandBlock .cvt8 b = b.assemble (conv8 b.sample8) := rfl

theorem commandBlock_convert : commandBlock .convert b =
    if b.cfgValid = false then b.fail .notConfigured else b.assemble b.configuredCode := rfl

theorem commandBlock_pace : commandBlock .pace b =
    if b.cfgValid = false then b.fail .notConfigured else if b.busy then b.fail .busy else b.startDelay := rfl

theorem commandBlock_convertPace : commandBlock .convertPace b =
    if b.cfgValid = false then b.fail .notConfigured else if b.busy then b.fail .busy
    else (b.assemble b.configuredCode).startDelay := rfl

end

section
variable {b : Block}

theorem commandBlock_configure_of_busy (hbusy : b.busy = true) : commandBlock .configure b = b.fail .busy := by
  simp [commandBlock, exec, execConfigure, hbusy]

theorem commandBlock_configure_of_some {n ch : BitVec 2} {us : Word} (hidle : b.busy = false)
    (hd : deriveFormat b.cfgBits b.cfgRate b.cfgBrate = some (n, ch, us)) :
    commandBlock .configure b = b.accept n ch us := by
  simp [commandBlock, exec, execConfigure, hidle, hd]

theorem commandBlock_configure_of_none (hidle : b.busy = false)
    (hd : deriveFormat b.cfgBits b.cfgRate b.cfgBrate = none) : commandBlock .configure b = b.reject := by
  simp [commandBlock, exec, execConfigure, hidle, hd]

end

/-! ## What an operation on the block changes -/

/-- Only these components may differ between the block before and the block after. -/
def ChangesOnly (writes : List Component) (before after : Block) : Prop :=
  ∀ k, k ∉ writes → after.get k = before.get k

section
variable (b : Block)

theorem ChangesOnly.refl (writes : List Component) : ChangesOnly writes b b := fun _ _ => rfl

/-- A failure writes `err` alone; so does CLEAR_ERR, whose write is that of the code `none`. -/
theorem Block.fail_changesOnly (e : ErrCode) : ChangesOnly [.err] b (b.fail e) := by
  intro k hk
  cases k <;> simp_all [Block.get]

theorem Block.assemble_changesOnly (code : Code) : ChangesOnly [.word, .frame] b (b.assemble code) := by
  intro k hk
  cases k <;> simp_all [Block.get]

theorem Block.startDelay_changesOnly : ChangesOnly [.paceCount] b b.startDelay := by
  intro k hk
  cases k <;> simp_all [Block.get]

theorem Block.stopDelay_changesOnly : ChangesOnly [.paceCount] b b.stopDelay := by
  intro k hk
  cases k <;> simp_all [Block.get]

theorem Block.accept_changesOnly (n ch : BitVec 2) (us : Word) :
    ChangesOnly [.cfgValid, .bps, .channels, .interval] b (b.accept n ch us) := by
  intro k hk
  cases k <;> simp_all [Block.get]

theorem Block.reject_changesOnly : ChangesOnly [.cfgValid, .bps, .channels, .interval, .err] b b.reject := by
  intro k hk
  cases k <;> simp_all [Block.get]

end

theorem ChangesOnly.mono {ws ws' : List Component} {a b : Block} (h : ChangesOnly ws a b) (hsub : ws ⊆ ws') :
    ChangesOnly ws' a b :=
  fun k hk => h k fun hin => hk (hsub hin)

theorem ChangesOnly.trans {ws ws' : List Component} {a b c : Block} (hab : ChangesOnly ws a b)
    (hbc : ChangesOnly ws' b c) : ChangesOnly (ws ++ ws') a c := by
  intro k hk
  rw [List.mem_append, not_or] at hk
  exact (hbc k hk.2).trans (hab k hk.1)

/-! ## What two blocks have in common afterwards -/

/-- Every component ends equal in both blocks, or unchanged in both. -/
def EqualOrUnchanged (b c b' c' : Block) : Prop :=
  ∀ k, b'.get k = c'.get k ∨ (b'.get k = b.get k ∧ c'.get k = c.get k)

/-- It is enough that the two operations change the same components, and give those the same values. -/
theorem EqualOrUnchanged.of_changesOnly {ws : List Component} {b c b' c' : Block} (hb : ChangesOnly ws b b')
    (hc : ChangesOnly ws c c') (heq : ∀ k ∈ ws, b'.get k = c'.get k) : EqualOrUnchanged b c b' c' := by
  intro k
  by_cases hk : k ∈ ws
  · exact .inl (heq k hk)
  · exact .inr ⟨hb k hk, hc k hk⟩

section
variable (b c : Block)

theorem EqualOrUnchanged.refl : EqualOrUnchanged b c b c := fun _ => .inr ⟨rfl, rfl⟩

theorem Block.fail_equalOrUnchanged (e : ErrCode) : EqualOrUnchanged b c (b.fail e) (c.fail e) :=
  .of_changesOnly (b.fail_changesOnly e) (c.fail_changesOnly e) (by simp [Block.get])

theorem Block.assemble_equalOrUnchanged (code : Code) : EqualOrUnchanged b c (b.assemble code) (c.assemble code) :=
  .of_changesOnly (b.assemble_changesOnly code) (c.assemble_changesOnly code) (by simp [Block.get])

theorem Block.stopDelay_equalOrUnchanged : EqualOrUnchanged b c b.stopDelay c.stopDelay :=
  .of_changesOnly b.stopDelay_changesOnly c.stopDelay_changesOnly (by simp [Block.get])

theorem Block.accept_equalOrUnchanged (n ch : BitVec 2) (us : Word) :
    EqualOrUnchanged b c (b.accept n ch us) (c.accept n ch us) :=
  .of_changesOnly (b.accept_changesOnly n ch us) (c.accept_changesOnly n ch us) (by simp [Block.get])

theorem Block.reject_equalOrUnchanged : EqualOrUnchanged b c b.reject c.reject :=
  .of_changesOnly b.reject_changesOnly c.reject_changesOnly (by simp [Block.get])

end

section
variable {b c : Block}

/-- The counter is loaded from the interval, which has to be the same in both. -/
theorem Block.startDelay_equalOrUnchanged (h : b.get .interval = c.get .interval) :
    EqualOrUnchanged b c b.startDelay c.startDelay :=
  .of_changesOnly b.startDelay_changesOnly c.startDelay_changesOnly (by simpa [Block.get] using h)

theorem Block.assemble_startDelay_equalOrUnchanged (code : Code) (h : b.get .interval = c.get .interval) :
    EqualOrUnchanged b c (b.assemble code).startDelay (c.assemble code).startDelay :=
  .of_changesOnly ((b.assemble_changesOnly code).trans (Block.startDelay_changesOnly _))
    ((c.assemble_changesOnly code).trans (Block.startDelay_changesOnly _)) (by simpa [Block.get] using h)

/-! ## From equal components to equal guards and codes -/

theorem Block.cfgValid_eq_of_get (h : b.get .cfgValid = c.get .cfgValid) : b.cfgValid = c.cfgValid := by
  have hinj : ∀ p q : Bool, p.toNat = q.toNat → p = q := by decide
  exact hinj _ _ h

theorem Block.busy_eq_of_get (h : b.get .paceCount = c.get .paceCount) : b.busy = c.busy := by
  rw [Block.busy, Block.busy, BitVec.eq_of_toNat_eq (x := b.paceCount) h]

theorem Block.sample16_eq_of_get (h : b.get .dataIn = c.get .dataIn) : b.sample16 = c.sample16 := by
  rw [Block.sample16, Block.sample16, BitVec.eq_of_toNat_eq (x := b.dataIn) h]

theorem Block.sample8_eq_of_get (h : b.get .dataIn = c.get .dataIn) : b.sample8 = c.sample8 := by
  rw [Block.sample8, Block.sample8, BitVec.eq_of_toNat_eq (x := b.dataIn) h]

theorem Block.configuredCode_eq_of_get (hbps : b.get .bps = c.get .bps) (hdata : b.get .dataIn = c.get .dataIn) :
    b.configuredCode = c.configuredCode := by
  rw [Block.configuredCode, Block.configuredCode, sample16_eq_of_get hdata, sample8_eq_of_get hdata,
    BitVec.eq_of_toNat_eq (x := b.bps) hbps]

theorem deriveFormat_eq_of_get (hbits : b.get .cfgBits = c.get .cfgBits) (hrate : b.get .cfgRate = c.get .cfgRate)
    (hbrate : b.get .cfgBrate = c.get .cfgBrate) :
    deriveFormat b.cfgBits b.cfgRate b.cfgBrate = deriveFormat c.cfgBits c.cfgRate c.cfgBrate := by
  rw [BitVec.eq_of_toNat_eq (x := b.cfgBits) hbits, BitVec.eq_of_toNat_eq (x := b.cfgRate) hrate,
    BitVec.eq_of_toNat_eq (x := b.cfgBrate) hbrate]

end

/-! ## The writes column -/

theorem commandBlock_configure_changesOnly (b : Block) :
    ChangesOnly (commandWrites .configure) b (commandBlock .configure b) := by
  cases hbusy : b.busy with
  | true => rw [commandBlock_configure_of_busy hbusy]; exact (b.fail_changesOnly _).mono (by decide)
  | false =>
    cases hd : deriveFormat b.cfgBits b.cfgRate b.cfgBrate with
    | some f => rw [commandBlock_configure_of_some hbusy hd]; exact (b.accept_changesOnly _ _ _).mono (by decide)
    | none => rw [commandBlock_configure_of_none hbusy hd]; exact b.reject_changesOnly

/-- A command changes only the components of its row's writes column. -/
theorem commandBlock_changesOnly (i : Instr) (b : Block) : ChangesOnly (commandWrites i) b (commandBlock i b) := by
  cases i with
  | nop => exact .refl b _
  | configure => exact commandBlock_configure_changesOnly b
  | convert =>
    rw [commandBlock_convert]
    split
    · exact (b.fail_changesOnly _).mono (by decide)
    · exact (b.assemble_changesOnly _).mono (by decide)
  | pace =>
    rw [commandBlock_pace]
    split_ifs
    · exact (b.fail_changesOnly _).mono (by decide)
    · exact (b.fail_changesOnly _).mono (by decide)
    · exact b.startDelay_changesOnly.mono (by decide)
  | convertPace =>
    rw [commandBlock_convertPace]
    split_ifs
    · exact (b.fail_changesOnly _).mono (by decide)
    · exact (b.fail_changesOnly _).mono (by decide)
    · exact ((b.assemble_changesOnly _).trans (Block.startDelay_changesOnly _)).mono (by decide)
  | abort => exact b.stopDelay_changesOnly
  | clearErr => exact b.fail_changesOnly .none
  | softReset => intro k hk; cases k <;> simp [commandWrites] at hk
  | cvt16 => exact b.assemble_changesOnly _
  | cvt8 => exact b.assemble_changesOnly _

/-! ## The reads column -/

/-- The two blocks agree on these components. -/
def AgreeOn (reads : List Component) (b c : Block) : Prop := ∀ k ∈ reads, b.get k = c.get k

theorem commandBlock_configure_equalOrUnchanged {b c : Block} (h : AgreeOn (commandReads .configure) b c) :
    EqualOrUnchanged b c (commandBlock .configure b) (commandBlock .configure c) := by
  have hbusy : b.busy = c.busy := Block.busy_eq_of_get (h _ (by decide))
  have hformat := deriveFormat_eq_of_get (h _ (by decide)) (h _ (by decide)) (h _ (by decide))
  cases hb : b.busy with
  | true =>
    rw [commandBlock_configure_of_busy hb, commandBlock_configure_of_busy (hbusy ▸ hb)]
    exact b.fail_equalOrUnchanged c _
  | false =>
    cases hd : deriveFormat b.cfgBits b.cfgRate b.cfgBrate with
    | some f =>
      rw [commandBlock_configure_of_some hb hd, commandBlock_configure_of_some (hbusy ▸ hb) (hformat ▸ hd)]
      exact b.accept_equalOrUnchanged c _ _ _
    | none =>
      rw [commandBlock_configure_of_none hb hd, commandBlock_configure_of_none (hbusy ▸ hb) (hformat ▸ hd)]
      exact b.reject_equalOrUnchanged c

/-- What a command makes of its block depends on the components of its row's reads column only. -/
theorem commandBlock_equalOrUnchanged {i : Instr} {b c : Block} (h : AgreeOn (commandReads i) b c) :
    EqualOrUnchanged b c (commandBlock i b) (commandBlock i c) := by
  cases i with
  | nop => exact .refl b c
  | configure => exact commandBlock_configure_equalOrUnchanged h
  | convert =>
    have hvalid : b.cfgValid = c.cfgValid := Block.cfgValid_eq_of_get (h _ (by decide))
    have hcode : b.configuredCode = c.configuredCode :=
      Block.configuredCode_eq_of_get (h _ (by decide)) (h _ (by decide))
    rw [commandBlock_convert, commandBlock_convert, hvalid, hcode]
    split
    · exact b.fail_equalOrUnchanged c _
    · exact b.assemble_equalOrUnchanged c _
  | pace =>
    have hvalid : b.cfgValid = c.cfgValid := Block.cfgValid_eq_of_get (h _ (by decide))
    have hbusy : b.busy = c.busy := Block.busy_eq_of_get (h _ (by decide))
    rw [commandBlock_pace, commandBlock_pace, hvalid, hbusy]
    split_ifs
    · exact b.fail_equalOrUnchanged c _
    · exact b.fail_equalOrUnchanged c _
    · exact Block.startDelay_equalOrUnchanged (h _ (by decide))
  | convertPace =>
    have hvalid : b.cfgValid = c.cfgValid := Block.cfgValid_eq_of_get (h _ (by decide))
    have hbusy : b.busy = c.busy := Block.busy_eq_of_get (h _ (by decide))
    have hcode : b.configuredCode = c.configuredCode :=
      Block.configuredCode_eq_of_get (h _ (by decide)) (h _ (by decide))
    rw [commandBlock_convertPace, commandBlock_convertPace, hvalid, hbusy, hcode]
    split_ifs
    · exact b.fail_equalOrUnchanged c _
    · exact b.fail_equalOrUnchanged c _
    · exact Block.assemble_startDelay_equalOrUnchanged _ (h _ (by decide))
  | abort => exact b.stopDelay_equalOrUnchanged c
  | clearErr => exact b.fail_equalOrUnchanged c .none
  | softReset => exact fun _ => .inl rfl
  | cvt16 =>
    rw [commandBlock_cvt16, commandBlock_cvt16, Block.sample16_eq_of_get (h _ (by decide))]
    exact b.assemble_equalOrUnchanged c _
  | cvt8 =>
    rw [commandBlock_cvt8, commandBlock_cvt8, Block.sample8_eq_of_get (h _ (by decide))]
    exact b.assemble_equalOrUnchanged c _

/-! ## The statement -/

/-- Settles O36: the writes column is `commandBlock_changesOnly`, the reads column `commandBlock_equalOrUnchanged`. -/
theorem commandsKeepToTheirOperands : Obligations.CommandsKeepToTheirOperands := fun i s u =>
  ⟨_, _, exec_eq_commandBlock i s, exec_eq_commandBlock i u, rfl, rfl, commandBlock_changesOnly i s.st,
    fun h => commandBlock_equalOrUnchanged h⟩

end Sys2Proof.Machine
end

section
/-!
PROOFS. The byte layouts around a conversion: the frame's bytes on the wire (30_encoding.md R77 to R79) and the stride
in `DATA_IN` (R76).
-/

namespace Sys2Proof.Machine

/-! ## The wire bytes -/

/-- The swap and the order of R79 cancel out: the high byte of the swapped half-word leaves first. -/
theorem wireBytes_swap16 (v : Half) : wireBytes (swap16 v) = [v.extractLsb' 8 8, v.extractLsb' 0 8] := by
  rw [wireBytes, swap16, BitVec.extractLsb'_append_eq_right, BitVec.extractLsb'_append_eq_left]

theorem dacWord_high_byte (chsel : BitVec 4) (code : Code) :
    (dacWord chsel code).extractLsb' 8 8 = chsel ++ code.extractLsb' 8 4 := by
  rw [dacWord_eq_append]
  apply BitVec.eq_of_toNat_eq
  simp only [BitVec.extractLsb'_toNat, toNat_append_eq_add, Nat.shiftRight_eq_div_pow]
  omega

theorem dacWord_low_byte (chsel : BitVec 4) (code : Code) :
    (dacWord chsel code).extractLsb' 0 8 = code.extractLsb' 0 8 := by
  rw [dacWord_eq_append, BitVec.extractLsb'_append_eq_of_add_le (by decide)]

/-! ## The stride in `DATA_IN` -/

theorem packStride_low_byte (fill : Word) (first : Byte) (rest : List Byte) :
    (packStride fill (first :: rest)).extractLsb' 0 8 = first :=
  BitVec.extractLsb'_append_eq_right

theorem packStride_low_half (fill : Word) (first second : Byte) (rest : List Byte) :
    (packStride fill (first :: second :: rest)).extractLsb' 0 16 = second ++ first := by
  apply BitVec.eq_of_toNat_eq
  simp only [packStride, ofLanes, List.getD_cons_succ, List.getD_cons_zero, BitVec.extractLsb'_toNat,
    toNat_append_eq_add, Nat.shiftRight_zero]
  omega

/-! ## The statements -/

/-- Settles O21: the swap's order is that of the wire, and the DAC word is channel-select bits, then code. -/
theorem wireBytesStartWithThePrefix : Obligations.WireBytesStartWithThePrefix := by
  intro b code
  rw [Block.assemble_frame, wireBytes_swap16, dacWord_high_byte, dacWord_low_byte]

/-- Settles O22: the sample is the low byte or the low half-word of the packed stride. -/
theorem packedStrideHoldsFirstChannelLow : Obligations.PackedStrideHoldsFirstChannelLow := by
  intro b fill l lo hi r rlo rhi
  simp only [Block.sample8, Block.sample16]
  refine ⟨fun h => ?mono8, fun h => ?stereo8, fun h => ?mono16, fun h => ?stereo16⟩
  case mono8 => rw [h, packStride_low_byte]
  case stereo8 => rw [h, packStride_low_byte]
  case mono16 => rw [h, packStride_low_half]
  case stereo16 => rw [h, packStride_low_half]

end Sys2Proof.Machine
end

section
/-!
PROOFS. Host programs (30_encoding.md R80, R81): what each form does to the device and to the host's registers, and one
turn of `wait_idle`.
-/

namespace Sys2Proof.Machine

/-! ## The forms -/

theorem RegName.read_legal (r : RegName) : (PortCycle.read r.off).legal = true := by
  cases r <;> rfl

section
variable {y : HostRun}

theorem HostRun.present_of_next {c : PortCycle} {d : State} (h : y.dev.present c = .next d) :
    y.present c = .next { y with dev := d } := by
  simp only [HostRun.present, h]

/-- `rd`: the register's value in the host's register, and ASFC's block as it was. -/
theorem HostRun.perform_rd (y : HostRun) (n : Fin 8) (r : RegName) :
    y.perform (.rd n r) = .next
      { dev := { y.dev with reply := some { rdata := some (y.dev.st.view r.off), err := false } }
        h := y.h.set n (y.dev.st.view r.off), line := y.line + 1 } := by
  rw [HostRun.perform, HostRun.present_of_next (State.present_read y.dev r.read_legal)]
  rfl

/-- `wr`: the device after the write cycle. -/
theorem HostRun.perform_wr {r : RegName} {v : Word} {d : State}
    (h : y.dev.present (PortCycle.write r.off v) = .next d) :
    y.perform (.wr r v) = .next { y with dev := d, line := y.line + 1 } := by
  rw [HostRun.perform, HostRun.present_of_next h]
  rfl

/-- `wrh` is `wr` of the value that the host's register holds. -/
theorem HostRun.perform_wrh (y : HostRun) (r : RegName) (n : Fin 8) : y.perform (.wrh r n) = y.perform (.wr r y.h[n]) :=
  rfl

/-- `cmd`: the device after the command. -/
theorem HostRun.perform_cmd {i : Instr} {d : State}
    (h : exec i { y.dev with reply := some { rdata := none, err := false } } = .next d) :
    y.perform (HostInstr.cmd i) = .next { y with dev := d, line := y.line + 1 } :=
  HostRun.perform_wr (r := .cmd) ((State.present_command y.dev i).trans h)

theorem HostRun.perform_andi (y : HostRun) (n : Fin 8) (imm : Word) :
    y.perform (.andi n imm) = .next { y with h := y.h.set n (y.h[n] &&& imm), line := y.line + 1 } := rfl

theorem HostRun.perform_bnez (y : HostRun) (n : Fin 8) (target : Nat) :
    y.perform (.bnez n target) = .next { y with line := if y.h[n] = 0#32 then y.line + 1 else target } := by
  by_cases hz : y.h[n] = 0#32
  · rw [HostRun.perform, if_neg (not_not.mpr hz), if_pos hz]
    rfl
  · rw [HostRun.perform, if_pos hz, if_neg hz]

end

/-! ## One turn of `wait_idle` -/

/-- The line of a program that holds line `k` of the `wait_idle` in it. -/
theorem getElem?_waitIdle_at (before behind : List HostInstr) (target : Nat) {k : Nat} {i : HostInstr}
    (h : (waitIdle target)[k]? = some i) : (before ++ waitIdle target ++ behind)[before.length + k]? = some i := by
  obtain ⟨hk, -⟩ := List.getElem?_eq_some_iff.mp h
  rw [List.append_assoc, List.getElem?_append_right (Nat.le_add_right _ _), Nat.add_sub_cancel_left,
    List.getElem?_append_left hk, h]

/-- At line `k` of a `wait_idle`, the host's step performs that line. -/
theorem HostRun.hostStep_in_waitIdle {before behind : List HostInstr} {y : HostRun} (target k : Nat) {i : HostInstr}
    (hline : y.line = before.length + k) (h : (waitIdle target)[k]? = some i) :
    y.hostStep (before ++ waitIdle target ++ behind) = y.perform i := by
  simp only [HostRun.hostStep, hline, getElem?_waitIdle_at before behind target h]

/-! ## The statements -/

/-- Settles O59: the three lines in turn; the mask of the second leaves `BUSY` for the branch of the third. -/
theorem waitIdleLoopsWhileBusy : Obligations.WaitIdleLoopsWhileBusy := by
  intro before behind y hline
  -- each host state is the one that its line leaves
  iterate 3 apply Exists.intro
  refine ⟨?rd, ?andi, ?bnez, ?line, ?st, ?inputs, ?regs⟩
  case rd => rw [HostRun.hostStep_in_waitIdle _ 0 hline rfl, HostRun.perform_rd]
  case andi => rw [HostRun.hostStep_in_waitIdle _ 1 (congrArg (· + 1) hline) rfl, HostRun.perform_andi]
  case bnez => rw [HostRun.hostStep_in_waitIdle _ 2 (congrArg (· + 2) hline) rfl, HostRun.perform_bnez]
  case line => simp [RegName.off, Block.status_busy, hline]
  case st => rfl
  case inputs => rfl
  case regs =>
    intro k hk
    have hk7 : 7 ≠ k.val := fun h => hk (Fin.ext h.symm)
    simp [hk7]

/-- Settles O58, form by form. -/
theorem hostFormsAreTheirTransactions : Obligations.HostFormsAreTheirTransactions := by
  intro y r n
  refine ⟨y.perform_rd n r, fun v d hstep => ⟨HostRun.perform_wr hstep, ?wrh⟩, fun i d => HostRun.perform_cmd⟩
  case wrh =>
    rintro rfl
    rw [HostRun.perform_wrh, HostRun.perform_wr hstep]

end Sys2Proof.Machine
end

section
/-!
PROOFS. CONFIGURE (40_configure.md R100 to R109): the derivation it performs, with its divisions as natural numbers; what
the command makes of an idle and of a busy block; and which step can configure an unconfigured block (10_state.md R36).
-/

namespace Sys2Proof.Machine

/-! ## The derived values as natural numbers -/

/-- Both divisions of 40_configure.md R106 are exact on the registers' numbers: nothing wraps. -/
theorem channelCount_toNat (brate rate : Word) (b : BitVec 2) :
    (channelCount brate rate b).toNat = brate.toNat / rate.toNat / b.toNat := by
  rw [channelCount, BitVec.toNat_udiv, BitVec.toNat_udiv, BitVec.toNat_setWidth_of_le (by decide)]

theorem channelCount_eq_ofNat_iff (brate rate : Word) (b : BitVec 2) {k : Nat} (hk : k < 2 ^ 32) :
    channelCount brate rate b = BitVec.ofNat 32 k ↔ brate.toNat / rate.toNat / b.toNat = k := by
  rw [BitVec.toNat_eq, channelCount_toNat, BitVec.toNat_ofNat, Nat.mod_eq_of_lt hk]

theorem sampleInterval_toNat (rate : Word) : (sampleInterval rate).toNat = 1000000 / rate.toNat := by
  simp [sampleInterval]

theorem sampleInterval_eq_ofNat (rate : Word) : sampleInterval rate = BitVec.ofNat 32 (1000000 / rate.toNat) := by
  rw [← sampleInterval_toNat, BitVec.ofNat_toNat, BitVec.setWidth_eq]

theorem bytesPerSample_eight : bytesPerSample 8#16 = some 1#2 := rfl
theorem bytesPerSample_sixteen : bytesPerSample 16#16 = some 2#2 := rfl

theorem bytesPerSample_of_ne {bits : BitVec 16} (h8 : bits ≠ 8#16) (h16 : bits ≠ 16#16) :
    bytesPerSample bits = none := by
  rw [bytesPerSample, if_neg h8, if_neg h16]

/-! ## The derivation, by the outcome of its three checks (40_configure.md R102) -/

section
variable {bits : BitVec 16} {rate brate : Word} {n : BitVec 2}

theorem deriveFormat_of_rate_zero (bits : BitVec 16) (brate : Word) : deriveFormat bits 0#32 brate = none := rfl

theorem deriveFormat_of_bad_depth (rate brate : Word) (hdepth : bytesPerSample bits = none) :
    deriveFormat bits rate brate = none := by
  simp [deriveFormat, hdepth]

theorem deriveFormat_of_good_depth (hrate : rate ≠ 0#32) (hdepth : bytesPerSample bits = some n) :
    deriveFormat bits rate brate =
      if brate.toNat / rate.toNat / n.toNat = 1 then some (n, 1#2, sampleInterval rate)
      else if brate.toNat / rate.toNat / n.toNat = 2 then some (n, 2#2, sampleInterval rate)
      else none := by
  simp only [deriveFormat, hrate, hdepth, if_false, channelCount_eq_ofNat_iff brate rate n (k := 1) (by decide),
    channelCount_eq_ofNat_iff brate rate n (k := 2) (by decide)]

/-- The staged fields that pass, and what is derived from them. -/
theorem deriveFormat_eq_some {b ch : Nat} (hrate : rate ≠ 0#32) (hdepth : bits = 8#16 ∧ b = 1 ∨ bits = 16#16 ∧ b = 2)
    (hch : ch = brate.toNat / rate.toNat / b) (hrange : ch = 1 ∨ ch = 2) :
    deriveFormat bits rate brate =
      some (BitVec.ofNat 2 b, BitVec.ofNat 2 ch, BitVec.ofNat 32 (1000000 / rate.toNat)) := by
  have hbytes : bytesPerSample bits = some (BitVec.ofNat 2 b) := by
    rcases hdepth with ⟨rfl, rfl⟩ | ⟨rfl, rfl⟩
    · exact bytesPerSample_eight
    · exact bytesPerSample_sixteen
  have hb : (BitVec.ofNat 2 b).toNat = b := by
    rcases hdepth with ⟨-, rfl⟩ | ⟨-, rfl⟩ <;> rfl
  rw [deriveFormat_of_good_depth hrate hbytes, hb, ← hch, ← sampleInterval_eq_ofNat]
  rcases hrange with rfl | rfl <;> rfl

/-- A channel count of 0 or above 2 does not pass. -/
theorem deriveFormat_of_bad_channels (hdepth : bytesPerSample bits = some n)
    (hch : brate.toNat / rate.toNat / n.toNat = 0 ∨ 3 ≤ brate.toNat / rate.toNat / n.toNat) :
    deriveFormat bits rate brate = none := by
  by_cases hrate : rate = 0#32
  · rw [hrate, deriveFormat_of_rate_zero]
  · rw [deriveFormat_of_good_depth hrate hdepth, if_neg (by omega), if_neg (by omega)]

end

/-! ## The command, by its outcome -/

section
variable {s : State}

theorem exec_configure_of_running (hrun : s.st.paceCount ≠ 0#32) :
    exec .configure s = .next { s with st := s.st.fail .busy } := by
  rw [exec_eq_commandBlock, commandBlock_configure_of_busy (s.st.busy_eq_true.mpr hrun)]

theorem exec_configure_of_some {n ch : BitVec 2} {us : Word} (hidle : s.st.paceCount = 0#32)
    (hd : deriveFormat s.st.cfgBits s.st.cfgRate s.st.cfgBrate = some (n, ch, us)) :
    exec .configure s = .next { s with st := s.st.accept n ch us } := by
  rw [exec_eq_commandBlock, commandBlock_configure_of_some (s.st.busy_eq_false.mpr hidle) hd]

theorem exec_configure_of_none (hidle : s.st.paceCount = 0#32)
    (hd : deriveFormat s.st.cfgBits s.st.cfgRate s.st.cfgBrate = none) :
    exec .configure s = .next { s with st := s.st.reject } := by
  rw [exec_eq_commandBlock, commandBlock_configure_of_none (s.st.busy_eq_false.mpr hidle) hd]

end

/-! ## PACE with an interval of 0 -/

/-- Loading the counter with the value it has changes nothing. -/
theorem Block.startDelay_eq_self {b : Block} (h : b.interval = b.paceCount) : b.startDelay = b := by
  cases b
  cases h
  rfl

theorem exec_pace_of_empty_delay {s : State} (hvalid : s.st.cfgValid = true) (hidle : s.st.paceCount = 0#32)
    (hempty : s.st.interval = 0#32) : exec .pace s = .next s := by
  have hbusy : s.st.busy = false := s.st.busy_eq_false.mpr hidle
  rw [exec_eq_commandBlock, commandBlock_pace, hvalid, hbusy]
  simp [Block.startDelay_eq_self (hempty.trans hidle.symm)]

/-! ## What configures an unconfigured block -/

section
variable {b : Block}

theorem commandBlock_configure_succeeds (hun : b.cfgValid = false) (hcfg : (commandBlock .configure b).cfgValid = true) :
    b.configureSucceeds = true := by
  cases hbusy : b.busy with
  | true => simp [commandBlock_configure_of_busy hbusy, hun] at hcfg
  | false =>
    cases hd : deriveFormat b.cfgBits b.cfgRate b.cfgBrate with
    | none => simp [commandBlock_configure_of_none hbusy hd] at hcfg
    | some f => simp [Block.configureSucceeds, hbusy, hd]

/-- Only CONFIGURE and SOFT_RESET write `cfg_valid` (30_encoding.md R72), and SOFT_RESET clears it. -/
theorem commandBlock_cfgValid_of_ne_configure {i : Instr} (hi : i ≠ .configure) (hun : b.cfgValid = false) :
    (commandBlock i b).cfgValid = false := by
  by_cases hsoft : i = .softReset
  · subst hsoft; rfl
  · have hnot : Component.cfgValid ∉ commandWrites i := by
      revert hi hsoft
      cases i <;> decide
    rw [Block.cfgValid_eq_of_get (commandBlock_changesOnly i b _ hnot), hun]

end

section
variable {c : PortCycle} {s t : State}

/-- Of all words written to `CMD`, only that of a CONFIGURE that succeeds configures the block. -/
theorem executeCommand_configures {v : Word} (hun : s.st.cfgValid = false) (he : executeCommand v s = .next t)
    (hcfg : t.st.cfgValid = true) : decode v = .ok .configure ∧ s.st.configureSucceeds = true := by
  rcases executeCommand_cases v s with ⟨i, hdec, e⟩ | ⟨_, -, e⟩ <;> rw [e] at he
  · rw [exec_eq_commandBlock] at he
    cases he
    by_cases hi : i = .configure
    · subst hi
      exact ⟨hdec, commandBlock_configure_succeeds hun hcfg⟩
    · simp [commandBlock_cfgValid_of_ne_configure hi hun] at hcfg
  · cases he
    simp [hun] at hcfg

/-- The same of a cycle's access: a store and a read leave `cfg_valid`. -/
theorem accessEffect_configures (hrst : c.rstN = true) (hun : s.st.cfgValid = false)
    (he : accessEffect c s = .next t) (hcfg : t.st.cfgValid = true) :
    c.runs .configure = true ∧ s.st.configureSucceeds = true := by
  rcases accessEffect_cases c s with ⟨hsel, hlegal, hwrite, haddr, e⟩ | ⟨-, -, -, -, e⟩ | ⟨-, e⟩ <;> rw [e] at he
  · obtain ⟨hdec, hsucceeds⟩ := executeCommand_configures hun he hcfg
    exact ⟨PortCycle.runs_of hrst hsel hlegal hwrite haddr hdec, hsucceeds⟩
  · cases he
    simp [hun] at hcfg
  · cases he
    simp [hun] at hcfg

/-- The same of a step: neither reset nor the tick sets `cfg_valid`. -/
theorem step_configures (hun : s.st.cfgValid = false) (hs : step s = .next t) (hcfg : t.st.cfgValid = true) :
    s.nextCycle.1.runs .configure = true ∧ s.st.configureSucceeds = true := by
  rcases step_next_cases hs with ⟨-, hst, -⟩ | ⟨hrst, -, -, q, b, hq, ha, hst⟩ <;> rw [hst] at hcfg
  · simp at hcfg
  · have hb : b.cfgValid = true := by
      split at hcfg
      · simpa using hcfg
      · exact hcfg
    rw [← hq] at hun ⊢
    exact accessEffect_configures hrst hun ha hb

/-- A cycle that runs a command is a presented one: the idle cycle runs none. -/
theorem State.exists_inputs_of_runs {i : Instr} (h : s.nextCycle.1.runs i = true) :
    ∃ rest, s.inputs = s.nextCycle.1 :: rest := by
  cases hin : s.inputs with
  | nil =>
    rw [State.nextCycle, hin] at h
    obtain ⟨-, hsel, -⟩ := PortCycle.runs_spec h
    cases hsel
  | cons c rest => exact ⟨rest, by rw [State.nextCycle_cons hin]⟩

end

/-! ## The statements -/

/-- Settles O8: the busy failure, the fields that pass, and the four ways to be rejected. -/
theorem configureFollowsItsRule : Obligations.ConfigureFollowsItsRule := by
  refine ⟨decode_encode .configure, fun s => ⟨exec_configure_of_running, ?accept, ?reject⟩⟩
  case accept =>
    intro b ch hidle hrate hdepth hch hrange
    exact exec_configure_of_some hidle (deriveFormat_eq_some hrate hdepth hch hrange)
  case reject =>
    intro hidle hfails
    apply exec_configure_of_none hidle
    rcases hfails with hrate | ⟨h8, h16⟩ | ⟨h8, hch⟩ | ⟨h16, hch⟩
    · rw [hrate, deriveFormat_of_rate_zero]
    · exact deriveFormat_of_bad_depth _ _ (bytesPerSample_of_ne h8 h16)
    · exact deriveFormat_of_bad_channels (n := 1#2) (h8 ▸ bytesPerSample_eight) (by simpa using hch)
    · exact deriveFormat_of_bad_channels (n := 2#2) (h16 ▸ bytesPerSample_sixteen) hch

/-- Settles O9: the registers' divisions are the natural numbers', where nested truncation is one truncation. -/
theorem channelCountIsTheSingleDivision : Obligations.ChannelCountIsTheSingleDivision :=
  fun brate rate b _ _ => ⟨channelCount_toNat brate rate b, Nat.div_div_eq_div_mul _ _ _⟩

/-- Settles O12: the quotient of R104 is 0 above 1 MHz, and PACE loads it into a counter that is 0. -/
theorem ratesAboveOneMegahertzPaceAtOnce : Obligations.RatesAboveOneMegahertzPaceAtOnce := by
  intro s hidle hfast hpass
  have hrate : s.st.cfgRate ≠ 0#32 := by
    intro hz
    simp [hz] at hfast
  have hinterval : 1000000 / s.st.cfgRate.toNat = 0 := Nat.div_eq_of_lt hfast
  obtain ⟨n, ch, hd⟩ : ∃ n ch, deriveFormat s.st.cfgBits s.st.cfgRate s.st.cfgBrate =
      some (n, ch, BitVec.ofNat 32 (1000000 / s.st.cfgRate.toNat)) := by
    rcases hpass with ⟨h8, hch⟩ | ⟨h16, hch⟩
    · exact ⟨_, _, deriveFormat_eq_some hrate (.inl ⟨h8, rfl⟩) (Nat.div_one _).symm (by simpa using hch)⟩
    · exact ⟨_, _, deriveFormat_eq_some hrate (.inr ⟨h16, rfl⟩) rfl (by simpa using hch)⟩
  rw [hinterval] at hd
  exact ⟨_, exec_configure_of_some hidle hd, rfl, rfl, (Block.busy_eq_false _).mpr hidle,
    exec_pace_of_empty_delay rfl hidle rfl⟩

/-- Settles O13: the step by `step_configures`, the three commands by their first check. -/
theorem unconfiguredUntilConfigureSucceeds : Obligations.UnconfiguredUntilConfigureSucceeds := by
  refine ⟨fun s t hun hs hcfg => ?step, fun s i hun hi => ?fails⟩
  case step =>
    obtain ⟨hruns, hsucceeds⟩ := step_configures hun hs hcfg
    obtain ⟨rest, hin⟩ := State.exists_inputs_of_runs hruns
    exact ⟨_, rest, hin, hruns, hsucceeds⟩
  case fails =>
    simp only [List.mem_cons, List.not_mem_nil, or_false] at hi
    rw [exec_eq_commandBlock]
    rcases hi with rfl | rfl | rfl
    · rw [commandBlock_convert, if_pos hun]; rfl
    · rw [commandBlock_pace, if_pos hun]; rfl
    · rw [commandBlock_convertPace, if_pos hun]; rfl

/-- Settles O10. -/
theorem intervalIsTheTruncatedQuotient : Obligations.IntervalIsTheTruncatedQuotient := by
  refine ⟨fun rate _ => ⟨sampleInterval_toNat rate, ?_⟩, by decide⟩
  rw [sampleInterval_toNat]
  exact Nat.div_le_self _ _

/-- Settles O11: every row's derived values are what its fields derive. -/
theorem configureCornerCases : Obligations.ConfigureCornerCases := by
  refine ⟨fun s hidle _ hrate => ?zeroRate, fun row hrow => ?table,
    fun s => exec_configure_of_running⟩
  case zeroRate => exact exec_configure_of_none hidle (by rw [hrate, deriveFormat_of_rate_zero])
  case table =>
    have hrows : deriveFormat row.1 row.2.1 row.2.2.1 = row.2.2.2 := by
      revert row
      simp only [List.forall_mem_cons, List.not_mem_nil, false_imp_iff, implies_true, and_true]
      and_intros
      all_goals rfl
    intro s hidle hbits hrate hbrate
    rw [← hbits, ← hrate, ← hbrate] at hrows
    cases hderived : row.2.2.2 with
    | none => exact exec_configure_of_none hidle (hrows.trans hderived)
    | some f => exact exec_configure_of_some hidle (hrows.trans hderived)

end Sys2Proof.Machine
end

section
/-!
PROOFS. The conversion (41_convert.md R121 to R130): the two code functions as arithmetic on the sample, the layouts of
`WORD` and `FRAME`, and the conversion commands in terms of both.
-/

namespace Sys2Proof.Machine

/-! ## `conv16` -/

/-- Flipping the sign bit and adding its weight are the same: the carry out of the top bit is lost. -/
theorem xor_signBit_eq_add (h : Half) : h ^^^ 0x8000#16 = h + 0x8000#16 := by
  have hsplit : h = h.extractLsb' 15 1 ++ h.extractLsb' 0 15 :=
    (BitVec.extractLsb'_append_extractLsb' (w := 1) (len := 15) (x := h)).symm
  have hflip : h ^^^ 0x8000#16 = (h.extractLsb' 15 1 + 1#1) ++ h.extractLsb' 0 15 := calc
    h ^^^ 0x8000#16 = (h.extractLsb' 15 1 ++ h.extractLsb' 0 15) ^^^ (1#1 ++ 0#15) := by rw [← hsplit]; rfl
    _ = (h.extractLsb' 15 1 + 1#1) ++ h.extractLsb' 0 15 := by
      rw [BitVec.xor_append, BitVec.xor_zero, BitVec.add_eq_xor]
  apply BitVec.eq_of_toNat_eq
  rw [hflip, toNat_append_eq_add]
  simp only [BitVec.toNat_add, BitVec.extractLsb'_toNat, Nat.shiftRight_eq_div_pow, BitVec.toNat_ofNat]
  omega

theorem xor_signBit_twice (h : Half) : h ^^^ 0x8000#16 ^^^ 0x8000#16 = h := by
  rw [BitVec.xor_assoc, BitVec.xor_self, BitVec.xor_zero]

/-- `conv16` keeps the high 12 of the 16 bits of the sum; what the sign extension puts above them is lost. -/
theorem conv16_toNat (h : Half) : (conv16 h).toNat = (h.toNat + 0x8000) % 2 ^ 16 / 16 := by
  simp only [conv16, BitVec.extractLsb'_toNat, BitVec.toNat_ushiftRight, BitVec.toNat_add, BitVec.toNat_signExtend,
    BitVec.toNat_setWidth, BitVec.toNat_ofNat, Nat.shiftRight_eq_div_pow]
  split <;> omega

/-- The sum as an integer: 0x8000 lifts the whole signed range to 0 and above. -/
theorem conv16_toNat_eq_toInt (h : Half) : ((conv16 h).toNat : Int) = (h.toInt + 0x8000) / 16 := by
  rw [conv16_toNat, BitVec.toInt_eq_toNat_cond]
  split <;> omega

theorem conv16_eq_signFlip (h : Half) : conv16 h = (h ^^^ 0x8000#16).extractLsb' 4 12 := by
  apply BitVec.eq_of_toNat_eq
  rw [conv16_toNat, xor_signBit_eq_add, BitVec.extractLsb'_toNat, BitVec.toNat_add, Nat.shiftRight_eq_div_pow,
    BitVec.toNat_ofNat]
  omega

theorem conv16_mono {h1 h2 : Half} (hle : h1.toInt ≤ h2.toInt) : (conv16 h1).toNat ≤ (conv16 h2).toNat := by
  have hdiv : (h1.toInt + 0x8000) / 16 ≤ (h2.toInt + 0x8000) / 16 :=
    Int.ediv_le_ediv (by decide) (by omega)
  rw [← conv16_toNat_eq_toInt, ← conv16_toNat_eq_toInt] at hdiv
  exact Int.ofNat_le.mp hdiv

/-- The samples of a code, numbered by their low four bits, which `conv16` discards (41_convert.md R124). -/
def sampleOf (code : Code) (n : BitVec 4) : Half := (code ++ n) ^^^ 0x8000#16

theorem sampleOf_injective (code : Code) : Function.Injective (sampleOf code) := by
  intro m n hmn
  have happend : code ++ m = code ++ n := (BitVec.xor_left_inj _).mp hmn
  have hlow := congrArg (BitVec.extractLsb' 0 4) happend
  rwa [BitVec.extractLsb'_append_eq_right, BitVec.extractLsb'_append_eq_right] at hlow

theorem conv16_sampleOf (code : Code) (n : BitVec 4) : conv16 (sampleOf code n) = code := by
  rw [conv16_eq_signFlip, sampleOf, xor_signBit_twice, BitVec.extractLsb'_append_eq_left]

/-- Every sample is among those of its code. -/
theorem sampleOf_conv16 (h : Half) : sampleOf (conv16 h) ((h ^^^ 0x8000#16).extractLsb' 0 4) = h := by
  rw [sampleOf, conv16_eq_signFlip, BitVec.extractLsb'_append_extractLsb', xor_signBit_twice]

theorem conv16_eq_iff (h : Half) (code : Code) : conv16 h = code ↔ ∃ n, sampleOf code n = h := by
  constructor
  · rintro rfl
    exact ⟨_, sampleOf_conv16 h⟩
  · rintro ⟨n, rfl⟩
    exact conv16_sampleOf code n

/-! ## `conv8` -/

theorem conv8_toNat (b : Byte) : (conv8 b).toNat = 16 * b.toNat := by
  have hmask : 0x0FFF = 2 ^ 12 - 1 := rfl
  simp only [conv8, BitVec.extractLsb'_toNat, BitVec.toNat_and, BitVec.toNat_shiftLeft, BitVec.toNat_setWidth,
    BitVec.toNat_ofNat, Nat.shiftLeft_eq, Nat.shiftRight_zero, Nat.reducePow, Nat.reduceMod]
  rw [hmask, Nat.and_two_pow_sub_one_eq_mod]
  omega

theorem conv8_eq_append (b : Byte) : conv8 b = b ++ 0b0000#4 := by
  apply BitVec.eq_of_toNat_eq
  rw [conv8_toNat, toNat_append_eq_add, BitVec.toNat_ofNat]
  omega

/-- Subtracting 128 from the byte undoes the 0x8000 that `conv16` adds to it 8 bits higher. -/
theorem conv8_eq_conv16 (b : Byte) : conv8 b = conv16 ((b - 128#8) ++ 0x00#8) := by
  apply BitVec.eq_of_toNat_eq
  rw [conv8_toNat, conv16_toNat, toNat_append_eq_add, BitVec.toNat_sub, BitVec.toNat_ofNat, BitVec.toNat_ofNat]
  omega

/-! ## The layouts of `WORD` and `FRAME` -/

/-- The two parts of the sum have no bit in common (41_convert.md R125). -/
theorem dacWord_eq_or (chsel : BitVec 4) (code : Code) :
    dacWord chsel code = (chsel.setWidth 16 <<< 12) ||| code.setWidth 16 := by
  rw [dacWord_eq_append, ← BitVec.setWidth_append_eq_shiftLeft_setWidth_or, BitVec.setWidth_eq]

theorem swap16_dacWord (chsel : BitVec 4) (code : Code) :
    swap16 (dacWord chsel code) = code.extractLsb' 0 8 ++ chsel ++ code.extractLsb' 8 4 := by
  rw [swap16, dacWord_high_byte, dacWord_low_byte, BitVec.append_assoc]
  rfl

theorem swap16_swap16 (v : Half) : swap16 (swap16 v) = v := by
  rw [swap16, swap16, BitVec.extractLsb'_append_eq_left, BitVec.extractLsb'_append_eq_right,
    BitVec.extractLsb'_append_extractLsb']

/-- The whole block after an assembly, with the DAC word as its layout. -/
theorem Block.assemble_eq (b : Block) (code : Code) : b.assemble code =
    { b with word := Config.chselPrefix ++ code, frame := swap16 (Config.chselPrefix ++ code) } := by
  rw [Block.assemble, dacWord_eq_append]

/-! ## The commands -/

theorem Block.configuredCode_of_sixteen {b : Block} (hbps : b.bps = 2#2) : b.configuredCode = conv16 b.sample16 :=
  if_pos hbps

theorem Block.configuredCode_of_eight {b : Block} (hbps : b.bps ≠ 2#2) : b.configuredCode = conv8 b.sample8 :=
  if_neg hbps

theorem Block.assemble_conv16 (b : Block) : b.assemble (conv16 b.sample16) =
    { b with
      word := Config.chselPrefix ++ (b.dataIn.extractLsb' 0 16 ^^^ 0x8000#16).extractLsb' 4 12
      frame := swap16 (Config.chselPrefix ++ (b.dataIn.extractLsb' 0 16 ^^^ 0x8000#16).extractLsb' 4 12) } := by
  rw [Block.assemble_eq, conv16_eq_signFlip, Block.sample16]

theorem Block.assemble_conv8 (b : Block) : b.assemble (conv8 b.sample8) =
    { b with
      word := Config.chselPrefix ++ (b.dataIn.extractLsb' 0 8 ++ 0#4)
      frame := swap16 (Config.chselPrefix ++ (b.dataIn.extractLsb' 0 8 ++ 0#4)) } := by
  rw [Block.assemble_eq, conv8_eq_append, Block.sample8]

section
variable {s : State}

theorem exec_convert_of_unconfigured (hun : s.st.cfgValid = false) :
    exec .convert s = .next { s with st := s.st.fail .notConfigured } := by
  rw [exec_eq_commandBlock, commandBlock_convert, if_pos hun]

theorem exec_convert_of_configured (hvalid : s.st.cfgValid = true) :
    exec .convert s = .next { s with st := s.st.assemble s.st.configuredCode } := by
  rw [exec_eq_commandBlock, commandBlock_convert, if_neg (by simp [hvalid])]

/-- At the configured depth of 2 bytes CONVERT is CVT16 (41_convert.md R127). -/
theorem exec_convert_eq_cvt16 (hvalid : s.st.cfgValid = true) (hbps : s.st.bps = 2#2) :
    exec .convert s = exec .cvt16 s := by
  rw [exec_convert_of_configured hvalid, Block.configuredCode_of_sixteen hbps, exec_cvt16]

/-- At any other depth CONVERT is CVT8 (41_convert.md R128; log 12). -/
theorem exec_convert_eq_cvt8 (hvalid : s.st.cfgValid = true) (hbps : s.st.bps ≠ 2#2) :
    exec .convert s = exec .cvt8 s := by
  rw [exec_convert_of_configured hvalid, Block.configuredCode_of_eight hbps, exec_cvt8]

end

/-! ## What the conversion takes from `DATA_IN` -/

section
variable {b : Block} {x : Word}

/-- The new value of `DATA_IN` has the same first channel's sample of the configured depth. -/
def Block.SameSample (b : Block) (x : Word) : Prop :=
  b.bps = 2#2 ∧ x.extractLsb' 0 16 = b.dataIn.extractLsb' 0 16 ∨
    b.bps = 1#2 ∧ x.extractLsb' 0 8 = b.dataIn.extractLsb' 0 8

theorem Block.SameSample.configuredCode_eq (h : b.SameSample x) :
    ({ b with dataIn := x } : Block).configuredCode = b.configuredCode := by
  rcases h with ⟨hbps, hx⟩ | ⟨hbps, hx⟩
  · have hcode : ({ b with dataIn := x } : Block).configuredCode = conv16 (x.extractLsb' 0 16) :=
      Block.configuredCode_of_sixteen hbps
    rw [hcode, hx, Block.configuredCode_of_sixteen hbps, Block.sample16]
  · have hne : b.bps ≠ 2#2 := by simp [hbps]
    have hcode : ({ b with dataIn := x } : Block).configuredCode = conv8 (x.extractLsb' 0 8) :=
      Block.configuredCode_of_eight hne
    rw [hcode, hx, Block.configuredCode_of_eight hne, Block.sample8]

theorem Block.SameSample.commandBlock_convert_eq (h : b.SameSample x) :
    commandBlock .convert { b with dataIn := x } = { commandBlock .convert b with dataIn := x } := by
  rw [commandBlock_convert, commandBlock_convert, h.configuredCode_eq]
  by_cases hun : b.cfgValid = false
  · rw [if_pos hun, if_pos hun]; rfl
  · rw [if_neg hun, if_neg hun]; rfl

theorem Block.SameSample.commandBlock_convertPace_eq (h : b.SameSample x) :
    commandBlock .convertPace { b with dataIn := x } = { commandBlock .convertPace b with dataIn := x } := by
  have hbusy : ({ b with dataIn := x } : Block).busy = b.busy := rfl
  rw [commandBlock_convertPace, commandBlock_convertPace, h.configuredCode_eq, hbusy]
  by_cases hun : b.cfgValid = false
  · rw [if_pos hun, if_pos hun]; rfl
  · rw [if_neg hun, if_neg hun]
    split <;> rfl

end

/-! ## The statements -/

/-- Settles O14: the sum of R121 as an integer. -/
theorem convSixteenIsTheOffsetSample : Obligations.ConvSixteenIsTheOffsetSample := conv16_toNat_eq_toInt

/-- Settles O15: the sum of R121 is the flip of R123, since 0x8000 is the weight of the sign bit. -/
theorem convSixteenIsTheSignFlip : Obligations.ConvSixteenIsTheSignFlip := conv16_eq_signFlip

/-- Settles O16: the samples of a code by `sampleOf`, the order by `conv16_mono`. -/
theorem convSixteenProperties : Obligations.ConvSixteenProperties := by
  refine ⟨fun code => ?sixteen, fun _ _ => conv16_mono, by decide, fun h hlow => ?silence⟩
  case sixteen => exact ⟨sampleOf code, sampleOf_injective code, fun h => conv16_eq_iff h code⟩
  case silence =>
    apply BitVec.eq_of_toNat_eq
    rw [conv16_toNat, BitVec.toNat_ofNat]
    omega

/-- Settles O17, from `conv8` as a number. -/
theorem convEightAppendsFourZeros : Obligations.ConvEightAppendsFourZeros := by
  intro b
  have hcode : (conv8 b).toNat = 16 * b.toNat := conv8_toNat b
  exact ⟨conv8_eq_append b, hcode, by omega⟩

/-- Settles O18: both paths give 16 times the byte. -/
theorem theTwoPathsAgree : Obligations.TheTwoPathsAgree := ⟨conv8_eq_conv16, by decide⟩

/-- Settles O19: the DAC word is its two parts side by side, and `FRAME` is that word's bytes in the other order. -/
theorem assembleWritesPrefixAndCode : Obligations.AssembleWritesPrefixAndCode := by
  refine ⟨fun p code => ⟨dacWord_eq_append p code, dacWord_eq_or p code⟩, fun b code => ?_⟩
  rw [Block.assemble_eq, ← dacWord_eq_append, swap16_dacWord]

/-- Settles O20: the second clause is the first at `b.word`. -/
theorem swapTwiceIsIdentity : Obligations.SwapTwiceIsIdentity := by
  refine ⟨swap16_swap16, fun b hframe => ?_⟩
  rw [hframe, swap16_swap16]

/-- Settles O23: the failure, and CVT16 or CVT8 by the configured depth. -/
theorem convertFollowsItsRule : Obligations.ConvertFollowsItsRule := by
  refine ⟨decode_encode .convert, fun s =>
    ⟨exec_convert_of_unconfigured, fun hvalid hbps => ?sixteen, fun hvalid hbps => ?eight⟩⟩
  case sixteen => rw [exec_convert_eq_cvt16 hvalid hbps, exec_cvt16, Block.assemble_conv16]
  case eight => rw [exec_convert_eq_cvt8 hvalid hbps, exec_cvt8, Block.assemble_conv8]

/-- Settles O24: the assembly of `conv16`, which CONVERT does at 2 bytes. -/
theorem cvtSixteenFollowsItsRule : Obligations.CvtSixteenFollowsItsRule := by
  refine ⟨decode_encode .cvt16, fun s => ⟨?_, fun hvalid hbps => (exec_convert_eq_cvt16 hvalid hbps).symm⟩⟩
  rw [exec_cvt16, Block.assemble_conv16]

/-- Settles O25: the assembly of `conv8`, which CONVERT does at 1 byte. -/
theorem cvtEightFollowsItsRule : Obligations.CvtEightFollowsItsRule := by
  refine ⟨decode_encode .cvt8, fun s =>
    ⟨?_, fun hvalid hbps => (exec_convert_eq_cvt8 hvalid (by simp [hbps])).symm⟩⟩
  rw [exec_cvt8, Block.assemble_conv8]

/-- Settles O26: each command makes the same of both blocks, but for `DATA_IN`. -/
theorem secondChannelIsNeverTransmitted : Obligations.SecondChannelIsNeverTransmitted := by
  intro s x t u i hi hsame ht hu
  rw [exec_eq_commandBlock] at ht hu
  cases ht
  cases hu
  simp only [List.mem_cons, List.not_mem_nil, or_false] at hi
  rcases hi with rfl | rfl
  · exact Block.SameSample.commandBlock_convert_eq hsame
  · exact Block.SameSample.commandBlock_convertPace_eq hsame

end Sys2Proof.Machine
end

section
/-!
PROOFS. The pacer (42_pacer.md R140 to R148): its three commands by their outcome, the tick of a cycle, which accesses
reach `PACE_COUNT`, and a delay along the cycles that cannot end it early.
-/

namespace Sys2Proof.Machine

/-! ## `BUSY` -/

theorem Block.status_getLsbD_busy (b : Block) : b.status.getLsbD 1 = b.busy := by
  simp only [Block.status, BitVec.getLsbD_append]
  simp

theorem Block.busy_eq_false_iff_toNat (b : Block) : b.busy = false ↔ b.paceCount.toNat = 0 := by
  rw [Block.busy_eq_false, BitVec.toNat_eq, BitVec.toNat_ofNat, Nat.zero_mod]

theorem Block.busy_iff_pos (b : Block) : b.busy = true ↔ 0 < b.paceCount.toNat := by
  rw [← Bool.not_eq_false, Block.busy_eq_false_iff_toNat, Nat.pos_iff_ne_zero]

/-! ## The commands, by their outcome -/

/-- Clearing a counter that is 0 changes nothing. -/
theorem Block.stopDelay_eq_self {b : Block} (h : b.paceCount = 0#32) : b.stopDelay = b := by
  cases b
  cases h
  rfl

section
variable {s : State}

theorem exec_pace_of_unconfigured (hun : s.st.cfgValid = false) :
    exec .pace s = .next { s with st := s.st.fail .notConfigured } := by
  rw [exec_eq_commandBlock, commandBlock_pace, if_pos hun]

theorem exec_pace_of_running (hvalid : s.st.cfgValid = true) (hrun : s.st.paceCount ≠ 0#32) :
    exec .pace s = .next { s with st := s.st.fail .busy } := by
  rw [exec_eq_commandBlock, commandBlock_pace, if_neg (by simp [hvalid]), if_pos (s.st.busy_eq_true.mpr hrun)]

theorem exec_pace_of_idle (hvalid : s.st.cfgValid = true) (hidle : s.st.paceCount = 0#32) :
    exec .pace s = .next { s with st := s.st.startDelay } := by
  rw [exec_eq_commandBlock, commandBlock_pace, if_neg (by simp [hvalid]), if_neg (by simp [Block.busy, hidle])]

theorem exec_convertPace_of_unconfigured (hun : s.st.cfgValid = false) :
    exec .convertPace s = .next { s with st := s.st.fail .notConfigured } := by
  rw [exec_eq_commandBlock, commandBlock_convertPace, if_pos hun]

theorem exec_convertPace_of_running (hvalid : s.st.cfgValid = true) (hrun : s.st.paceCount ≠ 0#32) :
    exec .convertPace s = .next { s with st := s.st.fail .busy } := by
  rw [exec_eq_commandBlock, commandBlock_convertPace, if_neg (by simp [hvalid]),
    if_pos (s.st.busy_eq_true.mpr hrun)]

theorem exec_convertPace_of_idle (hvalid : s.st.cfgValid = true) (hidle : s.st.paceCount = 0#32) :
    exec .convertPace s = .next { s with st := (s.st.assemble s.st.configuredCode).startDelay } := by
  rw [exec_eq_commandBlock, commandBlock_convertPace, if_neg (by simp [hvalid]),
    if_neg (by simp [Block.busy, hidle])]

end

/-! ## The tick of a cycle -/

theorem Block.tick_eq (b : Block) : b.tick = { b with paceCount := b.tick.paceCount } := by
  unfold Block.tick
  split <;> rfl

/-- A tick strobe takes no part in the cycle's access. -/
theorem accessEffect_without_tick (c : PortCycle) (s : State) :
    accessEffect { c with usTick := false } s = accessEffect c s := rfl

/-- Nor does it take part in the answer to that access. -/
theorem busReply_without_tick (b : Block) (c : PortCycle) : busReply b { c with usTick := false } = busReply b c := rfl

/-! ## What reaches `PACE_COUNT` -/

/-- The rows of 30_encoding.md R72 that write `st.pace_count`. -/
theorem paceCount_mem_commandWrites {i : Instr} (h : Component.paceCount ∈ commandWrites i) :
    (i = .pace ∨ i = .convertPace) ∨ i = .abort ∨ i = .softReset := by
  cases i <;> simp_all [commandWrites]

theorem commandBlock_paceCount_of_not_mem {i : Instr} (h : Component.paceCount ∉ commandWrites i) (b : Block) :
    (commandBlock i b).paceCount = b.paceCount :=
  BitVec.eq_of_toNat_eq (commandBlock_changesOnly i b .paceCount h)

/-- PACE and CONVERT_PACE load the counter of a configured idle block; their failures leave it. -/
theorem commandBlock_paces_cases {i : Instr} (hi : i = .pace ∨ i = .convertPace) (b : Block) :
    (b.cfgValid = true ∧ b.busy = false ∧ (commandBlock i b).paceCount = b.interval) ∨
    ((b.cfgValid = true → b.busy = true) ∧ (commandBlock i b).paceCount = b.paceCount) := by
  rcases hi with rfl | rfl
  · rw [commandBlock_pace]
    cases hvalid : b.cfgValid <;> cases hbusy : b.busy <;> simp
  · rw [commandBlock_convertPace]
    cases hvalid : b.cfgValid <;> cases hbusy : b.busy <;> simp

/-- The access of a cycle reaches `PACE_COUNT` only by a command whose row says so. -/
theorem accessEffect_paceCount_cases {c : PortCycle} {s t : State} (hrst : c.rstN = true)
    (ha : accessEffect c s = .next t) :
    t.st.paceCount = s.st.paceCount ∨
    ∃ i, Component.paceCount ∈ commandWrites i ∧ c.runs i = true ∧ t.st = commandBlock i s.st := by
  rcases accessEffect_cases c s with ⟨hsel, hlegal, hwrite, haddr, e⟩ | ⟨-, -, -, -, e⟩ | ⟨-, e⟩ <;> rw [e] at ha
  · rcases executeCommand_cases c.busWdata s with ⟨i, hdec, e⟩ | ⟨_, -, e⟩ <;> rw [e] at ha
    · rw [exec_eq_commandBlock] at ha
      cases ha
      by_cases hmem : Component.paceCount ∈ commandWrites i
      · exact .inr ⟨i, hmem, PortCycle.runs_of hrst hsel hlegal hwrite haddr hdec, rfl⟩
      · exact .inl (commandBlock_paceCount_of_not_mem hmem s.st)
    · cases ha
      exact .inl (s.st.fail_paceCount _)
  · cases ha
    exact .inl (s.st.store_paceCount _ _)
  · cases ha
    exact .inl rfl

/-! ## What starts a delay -/

section
variable {c : PortCycle} {s t : State}

theorem accessEffect_starts_delay (hrst : c.rstN = true) (hidle : s.st.busy = false) (ha : accessEffect c s = .next t)
    (hbusy : t.st.busy = true) : (c.runs .pace = true ∨ c.runs .convertPace = true) ∧ s.st.cfgValid = true := by
  rw [Block.busy_eq_false] at hidle
  rw [Block.busy_eq_true] at hbusy
  rcases accessEffect_paceCount_cases hrst ha with hsame | ⟨i, hmem, hruns, hst⟩
  · exact absurd (hsame.trans hidle) hbusy
  · rw [hst] at hbusy
    rcases paceCount_mem_commandWrites hmem with hi | rfl | rfl
    · rcases commandBlock_paces_cases hi s.st with ⟨hvalid, -, -⟩ | ⟨-, hsame⟩
      · refine ⟨?_, hvalid⟩
        rcases hi with rfl | rfl
        · exact .inl hruns
        · exact .inr hruns
      · exact absurd (hsame.trans hidle) hbusy
    · exact absurd rfl hbusy
    · exact absurd rfl hbusy

/-- The same of a step: neither reset nor the tick starts a delay. -/
theorem step_starts_delay (hidle : s.st.busy = false) (hs : step s = .next t) (hbusy : t.st.busy = true) :
    (s.nextCycle.1.runs .pace = true ∨ s.nextCycle.1.runs .convertPace = true) ∧ s.st.cfgValid = true := by
  rcases step_next_cases hs with ⟨-, hst, -⟩ | ⟨hrst, -, -, q, b, hq, ha, hst⟩ <;> rw [hst] at hbusy
  · simp [Block.busy] at hbusy
  · have hb : b.busy = true := by
      split at hbusy
      · rw [Block.busy_iff_pos, Block.tick_paceCount_toNat] at hbusy
        exact b.busy_iff_pos.mpr (by omega)
      · exact hbusy
    rw [← hq] at hidle ⊢
    exact accessEffect_starts_delay hrst hidle ha hb

/-! ## A running delay -/

theorem PortCycle.keepsDelay_spec (h : c.keepsDelay = true) :
    c.rstN = true ∧ c.illegalAccess = false ∧ c.runs .abort = false ∧ c.runs .softReset = false := by
  simpa [PortCycle.keepsDelay, and_assoc] using h

/-- While a delay runs, no access of a cycle that keeps it reaches the counter: a PACE fails with BUSY. -/
theorem accessEffect_keeps_delay (hk : c.keepsDelay = true) (hbusy : s.st.busy = true)
    (ha : accessEffect c s = .next t) : t.st.paceCount = s.st.paceCount := by
  obtain ⟨hrst, -, habort, hsoft⟩ := PortCycle.keepsDelay_spec hk
  rcases accessEffect_paceCount_cases hrst ha with hsame | ⟨i, hmem, hruns, hst⟩
  · exact hsame
  · rcases paceCount_mem_commandWrites hmem with hi | rfl | rfl
    · rcases commandBlock_paces_cases hi s.st with ⟨-, hidle, -⟩ | ⟨-, hsame⟩
      · simp [hidle] at hbusy
      · rw [hst, hsame]
    · simp [hruns] at habort
    · simp [hruns] at hsoft

/-- So the step of such a cycle lowers a running counter by its tick. -/
theorem step_keeps_delay {rest : List PortCycle} (hin : s.inputs = c :: rest) (hk : c.keepsDelay = true)
    (hbusy : s.st.busy = true) :
    ∃ t, step s = .next t ∧ t.inputs = rest ∧
      t.st.paceCount.toNat = s.st.paceCount.toNat - c.usTick.toNat := by
  obtain ⟨hrst, hok, -, -⟩ := PortCycle.keepsDelay_spec hk
  obtain ⟨b, ha⟩ := accessEffect_commits c { s with inputs := rest, reply := busReply s.st c }
  have hsame : b.paceCount = s.st.paceCount :=
    accessEffect_keeps_delay (s := { s with inputs := rest, reply := busReply s.st c }) hk hbusy ha
  refine ⟨_, step_of_accessEffect hin hrst hok ha, rfl, ?_⟩
  cases htick : c.usTick with
  | false => simp [hsame]
  | true => simpa [hsame] using b.tick_paceCount_toNat

end

theorem ticksOf_cons (c : PortCycle) (cycles : List PortCycle) :
    ticksOf (c :: cycles) = c.usTick.toNat + ticksOf cycles := by
  cases h : c.usTick <;> simp [ticksOf, h, Nat.add_comm]

/-- Fewer ticks than the counter holds: the run goes on, and the counter is lower by these ticks. -/
theorem run_keeps_delay {cycles rest : List PortCycle} {s : State} (hin : s.inputs = cycles ++ rest)
    (hk : ∀ c ∈ cycles, c.keepsDelay = true) (hticks : ticksOf cycles < s.st.paceCount.toNat) :
    ∃ t, Sys2Proof.core.run cycles.length s = .next t ∧ t.inputs = rest ∧
      t.st.paceCount.toNat = s.st.paceCount.toNat - ticksOf cycles := by
  induction cycles generalizing s with
  | nil => exact ⟨s, rfl, hin, rfl⟩
  | cons c cycles ih =>
    rw [List.forall_mem_cons] at hk
    obtain ⟨hc, hcycles⟩ := hk
    rw [ticksOf_cons] at hticks ⊢
    have hbusy : s.st.busy = true := s.st.busy_iff_pos.mpr (by omega)
    obtain ⟨u, hs, hu, hcount⟩ := step_keeps_delay hin hc hbusy
    obtain ⟨t, hrun, ht, hcount'⟩ := ih hu hcycles (by omega)
    exact ⟨t, (run_succ_of_next hs _).trans hrun, ht, by omega⟩

/-- A run's last step. -/
theorem run_succ_of_run {n : Nat} {s t u : State} (hrun : Sys2Proof.core.run n s = .next t) (hs : step t = .next u) :
    Sys2Proof.core.run (n + 1) s = .next u := by
  induction n generalizing s with
  | zero => cases hrun; exact run_succ_of_next hs 0
  | succ n ih =>
    obtain ⟨v, hv, hrest⟩ := run_succ_next hrun
    rw [run_succ_of_next hv]
    exact ih hrest

/-- With the tick that the counter still lacks, the run's last step ends the delay. -/
theorem run_ends_delay {cycles : List PortCycle} {last : PortCycle} {s : State} (hin : s.inputs = cycles ++ [last])
    (hk : ∀ c ∈ cycles ++ [last], c.keepsDelay = true) (hticks : ticksOf cycles + 1 = s.st.paceCount.toNat)
    (hlast : last.usTick = true) :
    ∃ t, Sys2Proof.core.run (cycles.length + 1) s = .next t ∧ t.st.busy = false := by
  obtain ⟨t, hrun, ht, hcount⟩ := run_keeps_delay hin (fun c hc => hk c (by simp [hc])) (by omega)
  have hbusy : t.st.busy = true := t.st.busy_iff_pos.mpr (by omega)
  obtain ⟨u, hs, -, hcount'⟩ := step_keeps_delay ht (hk last (by simp)) hbusy
  rw [hlast, Bool.toNat_true] at hcount'
  exact ⟨u, run_succ_of_run hrun hs, u.st.busy_eq_false_iff_toNat.mpr (by omega)⟩

/-! ## The statements -/

/-- Settles O32: the load sets the counter to the interval, `run_keeps_delay` and `run_ends_delay` follow it down, and
`step_starts_delay` says what leaves 0. -/
theorem delayLastsExactlyItsTicks : Obligations.DelayLastsExactlyItsTicks := by
  refine ⟨fun s p i hi hvalid hidle hp => ?delay, fun s t hidle hs hbusy => ?start⟩
  case delay =>
    have hpaces : i = .pace ∨ i = .convertPace := by simpa using hi
    rw [exec_eq_commandBlock] at hp
    cases hp
    have hload : (commandBlock i s.st).paceCount = s.st.interval := by
      rcases commandBlock_paces_cases hpaces s.st with ⟨-, -, hload⟩ | ⟨hfails, -⟩
      · exact hload
      · exact absurd hidle (s.st.busy_eq_true.mp (hfails hvalid))
    rw [← hload]
    refine ⟨(Block.busy_eq_false _).mpr, fun cycles hk hticks => ?running, fun cycles last hk hticks hlast => ?ended⟩
    case running =>
      obtain ⟨t, hrun, -, hcount⟩ := run_keeps_delay (rest := [])
        (s := { s with st := commandBlock i s.st, inputs := cycles }) (by simp) hk hticks
      exact ⟨t, hrun, t.st.busy_iff_pos.mpr (hcount ▸ Nat.sub_pos_of_lt hticks), hcount⟩
    case ended => exact run_ends_delay rfl hk hticks hlast
  case start =>
    obtain ⟨hruns, hvalid⟩ := step_starts_delay hidle hs hbusy
    obtain ⟨rest, hin⟩ := hruns.elim State.exists_inputs_of_runs State.exists_inputs_of_runs
    exact ⟨_, rest, hin, hruns, hvalid⟩

/-- Settles O27: the two failures, the load, and `BUSY` as bit 1 of `STATUS`. -/
theorem paceFollowsItsRule : Obligations.PaceFollowsItsRule := by
  refine ⟨decode_encode .pace, fun s => ⟨exec_pace_of_unconfigured, exec_pace_of_running, fun hvalid hidle => ?_⟩⟩
  refine ⟨exec_pace_of_idle hvalid hidle, ?_⟩
  rw [Block.view_status, Block.status_getLsbD_busy, Bool.eq_iff_iff, Block.busy_eq_true, decide_eq_true_eq]

/-- Settles O30: the counter is cleared, and the idle pacer lets the next PACE load it. -/
theorem abortFollowsItsRule : Obligations.AbortFollowsItsRule := by
  refine ⟨decode_encode .abort, fun s => ⟨exec_abort s, fun hidle => ?_, fun hvalid => exec_pace_of_idle hvalid rfl⟩⟩
  rw [exec_abort, Block.stopDelay_eq_self hidle]

/-- Settles O28: the two failures, and the assembly of the configured depth with the load on top. -/
theorem convertPaceFollowsItsRule : Obligations.ConvertPaceFollowsItsRule := by
  refine ⟨decode_encode .convertPace, fun s => ⟨exec_convertPace_of_unconfigured, exec_convertPace_of_running,
    fun hvalid hidle hbps => ?sixteen, fun hvalid hidle hbps => ?eight⟩⟩
  case sixteen =>
    rw [exec_convertPace_of_idle hvalid hidle, Block.configuredCode_of_sixteen hbps, Block.assemble_conv16,
      Block.startDelay]
  case eight =>
    rw [exec_convertPace_of_idle hvalid hidle, Block.configuredCode_of_eight hbps, Block.assemble_conv8,
      Block.startDelay]

/-- Settles O29: unconfigured, all three fail alike; configured, the conversion leaves the pacer idle for the PACE. -/
theorem convertThenPaceIsConvertPace : Obligations.ConvertThenPaceIsConvertPace := by
  intro s hidle
  cases hvalid : s.st.cfgValid with
  | false =>
    exact ⟨_, _, exec_convert_of_unconfigured hvalid, exec_pace_of_unconfigured hvalid,
      exec_convertPace_of_unconfigured hvalid⟩
  | true =>
    exact ⟨_, _, exec_convert_of_configured hvalid, exec_pace_of_idle hvalid hidle,
      exec_convertPace_of_idle hvalid hidle⟩

/-- Settles O31: the access and its answer do not see the strobe, so the two steps differ by `Block.tick` alone. -/
theorem tickStepsTheCounterDown : Obligations.TickStepsTheCounterDown := by
  refine ⟨fun s c rest hin hrst htick hok => ?cycle, fun s rest hin => ?tickOnly⟩
  case cycle =>
    obtain ⟨b, ha⟩ := accessEffect_commits c { s with inputs := rest, reply := busReply s.st c }
    refine ⟨{ st := b, inputs := rest, reply := busReply s.st c }, b.tick.paceCount, ?_, b.tick_paceCount_toNat, ?_⟩
    · rw [step_eq_accessEffect (c := { c with usTick := false }) rfl hrst hok rfl, accessEffect_without_tick,
        busReply_without_tick, ha]
    · rw [step_of_accessEffect hin hrst hok ha, if_pos htick, ← Block.tick_eq]
  case tickOnly =>
    refine ⟨s.st.tick.paceCount, s.st.tick_paceCount_toNat, ?_⟩
    rw [step_of_accessEffect hin rfl rfl (accessEffect_of_read _ rfl), ← Block.tick_eq]
    rfl

end Sys2Proof.Machine
end

section
/-!
PROOFS. The control commands and the write to `CMD` of a word that is no command's (43_control.md R160 to R163): the
step of such a write and of a reset cycle, and what `FORMAT` shows of the reset block.
-/

namespace Sys2Proof.Machine

section
variable {s : State} {c : PortCycle} {rest : List PortCycle}

/-- A write to `CMD` presented by the host is answered without an error, and its word is executed (20_memory.md R57). -/
theorem step_of_command {v : Word} (hin : s.inputs = PortCycle.command v :: rest) :
    step s = executeCommand v { s with inputs := rest, reply := some { rdata := none, err := false } } := by
  have hlegal : (PortCycle.command v).legal = true :=
    PortCycle.legal_eq_true_iff.mpr ⟨rfl, fun _ => rfl⟩
  exact step_eq_writeRegister hin rfl rfl hlegal rfl rfl

/-- A cycle with `rst_n` = 0 resets the block, whatever access or tick it carries (70_reset_and_hazards.md R190). -/
theorem step_of_reset (hin : s.inputs = c :: rest) (hrst : c.rstN = false) :
    step s = .next { st := Block.reset, inputs := rest, reply := busReply s.st c } := by
  rw [step_eq_clockCycle, State.nextCycle_cons hin]
  rcases clockCycle_cases c { s with inputs := rest } with ⟨-, e⟩ | ⟨hill, -⟩ | ⟨hr, -⟩
  · exact e
  · simp [PortCycle.illegalAccess, hrst] at hill
  · simp [hrst] at hr

end

theorem busReply_of_not_selected (b : Block) {c : PortCycle} (hsel : c.busSel = false) : busReply b c = none := by
  simp [busReply, hsel]

/-- After reset `FORMAT` holds `CHSEL_PREFIX` alone: no sample size, no channels and so no stride. -/
theorem Block.reset_format_toNat : Block.reset.format.toNat = Config.chselPrefix.toNat * 4096 := by
  rw [Block.format_toNat, Block.stride_field_toNat (by decide) (by decide), Block.reset_bps, Block.reset_channels,
    BitVec.toNat_ofNat]
  omega

/-! ## The statements -/

/-- Settles O4: each command's word is in the list of ten, so a value outside it is no command's word. -/
theorem writeOfNoCommandWordFails : Obligations.WriteOfNoCommandWordFails := by
  intro v s rest hin hnot
  have hne : ∀ i, v ≠ encode i := by
    rintro i rfl
    cases i <;> simp [encode] at hnot
  rw [step_of_command hin, executeCommand_of_ne_encode hne]

/-- Settles O33: NOP commits the block it finds. -/
theorem nopChangesNothing : Obligations.NopChangesNothing := ⟨decode_encode .nop, exec_nop⟩

/-- Settles O34: the code that CLEAR_ERR writes is that of no error. -/
theorem clearErrOnlyClearsErr : Obligations.ClearErrOnlyClearsErr := ⟨decode_encode .clearErr, exec_clearErr⟩

/-- Settles O35: SOFT_RESET and the reset cycle leave the same block, and the cycle presents no access to answer. -/
theorem softResetSetsEveryComponent : Obligations.SoftResetSetsEveryComponent := by
  refine ⟨decode_encode .softReset, fun s => ⟨exec_softReset s, fun t ht => ?_⟩⟩
  cases (exec_softReset s).symm.trans ht
  refine ⟨Block.reset_format_toNat, ?_⟩
  rw [step_of_reset (c := PortCycle.reset) rfl rfl, busReply_of_not_selected _ rfl]

end Sys2Proof.Machine
end

section
/-!
PROOFS. Failures and stops (60_exceptions.md R170 to R178, R187): what a command makes of `err`, what clears an error,
which steps stop, and the order of reset, access and tick within one cycle.
-/

namespace Sys2Proof.Machine

/-! ## What a command makes of `err` -/

theorem commandBlock_clearErr (b : Block) : commandBlock .clearErr b = b.fail .none := rfl
theorem commandBlock_softReset (b : Block) : commandBlock .softReset b = Block.reset := rfl

/-- A command leaves `err`, or it is no more than the failure with a code of its row (CLEAR_ERR's is the code of no
error), or it is one of the two that write more beside `err`: CONFIGURE's reject and SOFT_RESET. -/
theorem commandBlock_err_cases (i : Instr) (b : Block) :
    (commandBlock i b).err = b.err ∨
    (∃ e : ErrCode, e.code.toNat ∈ commandErrCodes i ∧ commandBlock i b = b.fail e) ∨
    (i = .configure ∧ commandBlock i b = b.reject) ∨
    (i = .softReset ∧ commandBlock i b = Block.reset) := by
  cases i with
  | nop => exact .inl rfl
  | abort => exact .inl rfl
  | cvt16 => exact .inl rfl
  | cvt8 => exact .inl rfl
  | clearErr => exact .inr (.inl ⟨.none, by decide, commandBlock_clearErr b⟩)
  | softReset => exact .inr (.inr (.inr ⟨rfl, commandBlock_softReset b⟩))
  | configure =>
    cases hbusy : b.busy with
    | true => exact .inr (.inl ⟨.busy, by decide, commandBlock_configure_of_busy hbusy⟩)
    | false =>
      cases hd : deriveFormat b.cfgBits b.cfgRate b.cfgBrate with
      | some f => exact .inl (by rw [commandBlock_configure_of_some hbusy hd, Block.accept_err])
      | none => exact .inr (.inr (.inl ⟨rfl, commandBlock_configure_of_none hbusy hd⟩))
  | convert =>
    rw [commandBlock_convert]
    split
    · exact .inr (.inl ⟨.notConfigured, by decide, rfl⟩)
    · exact .inl (b.assemble_err _)
  | pace =>
    rw [commandBlock_pace]
    split_ifs
    · exact .inr (.inl ⟨.notConfigured, by decide, rfl⟩)
    · exact .inr (.inl ⟨.busy, by decide, rfl⟩)
    · exact .inl b.startDelay_err
  | convertPace =>
    rw [commandBlock_convertPace]
    split_ifs
    · exact .inr (.inl ⟨.notConfigured, by decide, rfl⟩)
    · exact .inr (.inl ⟨.busy, by decide, rfl⟩)
    · exact .inl rfl

/-- The table of 60_exceptions.md R187 as a bound. -/
theorem commandBlock_err_mem (i : Instr) (b : Block) :
    (commandBlock i b).err = b.err ∨ (commandBlock i b).err.toNat ∈ commandErrCodes i := by
  rcases commandBlock_err_cases i b with hsame | ⟨e, he, hb⟩ | ⟨rfl, hb⟩ | ⟨rfl, hb⟩
  · exact .inl hsame
  · exact .inr (hb ▸ he)
  · rw [hb, Block.reject_err]; exact .inr (by decide)
  · rw [hb, Block.reset_err]; exact .inr (by decide)

/-- The rows of 60_exceptions.md R187 that write 0. -/
theorem zero_mem_commandErrCodes {i : Instr} (h : 0 ∈ commandErrCodes i) : i = .clearErr ∨ i = .softReset := by
  cases i <;> simp_all [commandErrCodes]

/-- A block in which every command whose row has the code `e` writes it: one with an error to clear (0), a configured
one with a delay running (4), and the reset block, which is unconfigured and has a staged rate of 0 (1 and 2). -/
def blockReporting : Nat → Block
  | 0 => { Block.reset with err := 3#4 }
  | 4 => { Block.reset with cfgValid := true, paceCount := 1#32 }
  | _ => Block.reset

theorem blockReporting_err_ne (e : Nat) : (blockReporting e).err.toNat ≠ e := by
  unfold blockReporting
  split
  · decide
  · decide
  · next hne _ => exact fun h => hne h.symm

theorem commandBlock_blockReporting {i : Instr} {e : Nat} (he : e ∈ commandErrCodes i) :
    (commandBlock i (blockReporting e)).err.toNat = e := by
  revert e
  cases i with
  | nop => exact fun h => absurd h List.not_mem_nil
  | abort => exact fun h => absurd h List.not_mem_nil
  | cvt16 => exact fun h => absurd h List.not_mem_nil
  | cvt8 => exact fun h => absurd h List.not_mem_nil
  | configure => decide
  | convert => decide
  | pace => decide
  | convertPace => decide
  | clearErr => decide
  | softReset => decide

/-! ## What an access makes of the block, whatever cycles come after it -/

theorem executeCommand_block (v : Word) (b : Block) :
    ∃ b', ∀ s : State, s.st = b → executeCommand v s = .next { s with st := b' } := by
  cases hdec : decode v with
  | ok i =>
    refine ⟨commandBlock i b, ?_⟩
    rintro s rfl
    rw [executeCommand_of_decode hdec, exec_eq_commandBlock]
  | error _ =>
    refine ⟨b.fail .illegalCmd, ?_⟩
    rintro s rfl
    simp [executeCommand, hdec]

/-- Neither the cycles to come nor the last answer has a part in what an access does. -/
theorem accessEffect_block (c : PortCycle) (b : Block) :
    ∃ b', ∀ s : State, s.st = b → accessEffect c s = .next { s with st := b' } := by
  cases hacts : c.busSel && c.legal && c.busWrite with
  | false =>
    refine ⟨b, ?_⟩
    rintro s rfl
    simp [accessEffect, hacts]
  | true =>
    by_cases haddr : c.busAddr = 0x00#8
    · obtain ⟨b', hb'⟩ := executeCommand_block c.busWdata b
      refine ⟨b', fun s hs => ?_⟩
      simpa [accessEffect, hacts, haddr, writeRegister_cmd] using hb' s hs
    · refine ⟨b.store c.busAddr c.busWdata, ?_⟩
      rintro s rfl
      simp [accessEffect, hacts, writeRegister_of_ne_cmd haddr]

/-! ## What clears an error -/

section
variable {c : PortCycle} {s t : State}

theorem accessEffect_clears_err (hrst : c.rstN = true) (herr : s.st.err ≠ 0#4) (ha : accessEffect c s = .next t)
    (hclear : t.st.err = 0#4) : c.runs .clearErr = true ∨ c.runs .softReset = true := by
  rcases accessEffect_cases c s with ⟨hsel, hlegal, hwrite, haddr, e⟩ | ⟨-, -, -, -, e⟩ | ⟨-, e⟩ <;> rw [e] at ha
  · rcases executeCommand_cases c.busWdata s with ⟨i, hdec, e⟩ | ⟨_, -, e⟩ <;> rw [e] at ha
    · rw [exec_eq_commandBlock] at ha
      cases ha
      have hruns : c.runs i = true := PortCycle.runs_of hrst hsel hlegal hwrite haddr hdec
      rcases commandBlock_err_mem i s.st with hsame | hmem
      · exact absurd (hsame.symm.trans hclear) herr
      · rw [hclear] at hmem
        rcases zero_mem_commandErrCodes hmem with rfl | rfl
        · exact .inl hruns
        · exact .inr hruns
    · cases ha
      exact absurd hclear (show ErrCode.illegalCmd.code ≠ 0#4 by decide)
  · cases ha
    exact absurd ((s.st.store_err _ _).symm.trans hclear) herr
  · cases ha
    exact absurd hclear herr

/-- The same of a step: the tick does not reach `err`. -/
theorem step_clears_err (herr : s.st.err ≠ 0#4) (hs : step s = .next t) (hclear : t.st.err = 0#4) :
    s.nextCycle.1.rstN = false ∨ s.nextCycle.1.runs .clearErr = true ∨ s.nextCycle.1.runs .softReset = true := by
  rcases step_next_cases hs with ⟨hrst, -, -⟩ | ⟨hrst, -, -, q, b, hq, ha, hst⟩
  · exact .inl hrst
  · have hb : b.err = 0#4 := by
      rw [← hclear, hst]
      split
      · exact b.tick_err.symm
      · rfl
    exact .inr (accessEffect_clears_err hrst (hq ▸ herr) ha hb)

/-! ## Which steps stop -/

/-- A next cycle in which some agent acts is a presented one. -/
theorem State.exists_inputs_of_ne_idle (h : s.nextCycle.1 ≠ PortCycle.idle) :
    ∃ rest, s.inputs = s.nextCycle.1 :: rest := by
  cases hin : s.inputs with
  | nil => exact absurd (by rw [State.nextCycle, hin]) h
  | cons c rest => exact ⟨rest, by rw [State.nextCycle_cons hin]⟩

theorem PortCycle.illegalAccess_of_reset (hrst : c.rstN = false) : c.illegalAccess = false := by
  simp [PortCycle.illegalAccess, hrst]

/-- A step takes the next cycle: it is the fault of an illegal access, or it goes on. -/
theorem step_cases (s : State) :
    (s.nextCycle.1.illegalAccess = true ∧ step s = .fault (.busError s.nextCycle.1.busAddr)) ∨
    (s.nextCycle.1.illegalAccess = false ∧ ∃ t, step s = .next t ∧ t.inputs = s.nextCycle.2) := by
  rw [step_eq_clockCycle]
  rcases clockCycle_cases s.nextCycle.1 { s with inputs := s.nextCycle.2 } with
    ⟨hrst, e⟩ | ⟨hill, e⟩ | ⟨-, hok, b, -, e⟩
  · exact .inr ⟨PortCycle.illegalAccess_of_reset hrst, _, e, rfl⟩
  · exact .inl ⟨hill, e⟩
  · exact .inr ⟨hok, _, e, rfl⟩

theorem step_ne_refused (s : State) (r : Refusal) : step s ≠ .refused r := by
  rcases step_cases s with ⟨-, e⟩ | ⟨-, t, e, -⟩ <;> rw [e] <;> exact nofun

theorem step_eq_fault_iff (s : State) (f : Fault) :
    step s = .fault f ↔
      ∃ c rest, s.inputs = c :: rest ∧ c.illegalAccess = true ∧ f = .busError c.busAddr := by
  constructor
  · intro hf
    rcases step_cases s with ⟨hill, e⟩ | ⟨-, t, e, -⟩ <;> rw [e] at hf <;> cases hf
    have hacts : s.nextCycle.1 ≠ PortCycle.idle := by
      intro hidle
      rw [hidle] at hill
      cases hill
    obtain ⟨rest, hin⟩ := State.exists_inputs_of_ne_idle hacts
    exact ⟨_, rest, hin, hill, rfl⟩
  · rintro ⟨c, rest, hin, hill, rfl⟩
    exact step_of_illegalAccess hin hill

/-- The next cycle of a host without illegal accesses is none, and neither are those after it. -/
theorem State.nextCycle_legal (h : ∀ c ∈ s.inputs, c.illegalAccess = false) :
    s.nextCycle.1.illegalAccess = false ∧ ∀ c ∈ s.nextCycle.2, c.illegalAccess = false := by
  cases hin : s.inputs with
  | nil => rw [State.nextCycle, hin]; exact ⟨rfl, by simp⟩
  | cons c rest => rw [State.nextCycle_cons hin]; simpa [hin] using h

theorem run_of_legal (n : Nat) (h : ∀ c ∈ s.inputs, c.illegalAccess = false) : SafeRun n s := by
  induction n generalizing s with
  | zero => exact ⟨s, rfl⟩
  | succ n ih =>
    obtain ⟨hok, hrest⟩ := State.nextCycle_legal h
    rcases step_cases s with ⟨hill, -⟩ | ⟨-, t, hs, hin⟩
    · simp [hok] at hill
    · obtain ⟨u, hu⟩ := ih (hin ▸ hrest)
      exact ⟨u, (run_succ_of_next hs n).trans hu⟩

end

/-! ## A tick in a cycle of its own -/

theorem step_of_tick {s : State} {rest : List PortCycle} (hin : s.inputs = PortCycle.tick :: rest) :
    step s = .next { st := s.st.tick, inputs := rest, reply := none } :=
  step_of_accessEffect hin rfl rfl (accessEffect_of_read _ rfl)

/-! ## The statements -/

/-- Settles O37: the bound by `commandBlock_err_mem`, and each code of a row reached from its `blockReporting`. -/
theorem commandsReportOnlyTheirCodes : Obligations.CommandsReportOnlyTheirCodes := by
  refine ⟨fun i s t ht => ?bound, fun i e he => ?reached, fun v s t hv ht => ?illegal⟩
  case bound =>
    rw [exec_eq_commandBlock] at ht
    cases ht
    exact commandBlock_err_mem i s.st
  case reached =>
    exact ⟨{ st := blockReporting e, inputs := [], reply := none }, _, exec_eq_commandBlock i _,
      blockReporting_err_ne e, commandBlock_blockReporting he⟩
  case illegal =>
    have hne : ∀ i, v ≠ encode i := fun i h => hv i ((decode_eq_ok_iff_eq_encode v i).mpr h)
    rw [executeCommand_of_ne_encode hne] at ht
    cases ht
    rfl

/-- Settles O38: `step_clears_err` names the cycle, and it is a presented one because the idle cycle is neither. -/
theorem errorsStayUntilCleared : Obligations.ErrorsStayUntilCleared := by
  intro s t hs herr hclear
  have hcycle := step_clears_err herr hs hclear
  have hacts : s.nextCycle.1 ≠ PortCycle.idle := by
    intro hidle
    rw [hidle] at hcycle
    revert hcycle
    decide
  obtain ⟨rest, hin⟩ := State.exists_inputs_of_ne_idle hacts
  exact ⟨_, rest, hin, hcycle⟩

/-- Settles O39: of what writes `err`, the failure alone leaves a code from 2 to 4; the reject leaves 1, SOFT_RESET 0. -/
theorem failuresArePrecise : Obligations.FailuresArePrecise := by
  intro v s t ht hnew hcode
  rcases executeCommand_cases v s with ⟨i, -, e⟩ | ⟨_, -, e⟩ <;> rw [e] at ht
  · rw [exec_eq_commandBlock] at ht
    cases ht
    rcases commandBlock_err_cases i s.st with hsame | ⟨e, -, hb⟩ | ⟨-, hb⟩ | ⟨-, hb⟩
    · exact absurd hsame hnew
    · simp only [hb, Block.fail]
    · simp [hb] at hcode
    · simp [hb] at hcode
  · cases ht
    rfl

/-- Settles O48: the access leaves the same block whatever cycles come after it, and both runs end with `Block.tick`. -/
theorem sameCycleIsAccessThenTick : Obligations.SameCycleIsAccessThenTick := by
  intro s c rest hin
  refine ⟨fun hrst => ⟨_, step_of_reset hin hrst, rfl⟩, fun hrst htick hok => ?_⟩
  obtain ⟨b, ha⟩ := accessEffect_block c s.st
  have haccess := step_of_accessEffect (c := { c with usTick := false }) (rest := PortCycle.tick :: rest)
    (s := { s with inputs := { c with usTick := false } :: PortCycle.tick :: rest }) rfl hrst hok (ha _ rfl)
  refine ⟨_, _, step_of_accessEffect hin hrst hok (ha _ rfl),
    (run_succ_of_next haccess 1).trans (run_succ_of_next (step_of_tick rfl) 0), ?_, rfl⟩
  simp [htick]

/-- Settles O50. -/
theorem onlyIllegalAccessesStopAStep : Obligations.OnlyIllegalAccessesStopAStep := fun s =>
  ⟨step_eq_fault_iff s, step_ne_refused s⟩

/-- Settles O51, by induction on the number of steps. -/
theorem legalHostsRunForEver : Obligations.LegalHostsRunForEver := fun n _ => run_of_legal n

end Sys2Proof.Machine
end

section
/-!
PROOFS. Reset and hazards (70_reset_and_hazards.md R190 to R200): what a reset cycle answers and leaves, what reaches the
values CONFIGURE derived, and the whole strides of a buffer of bytes.
-/

namespace Sys2Proof.Machine

/-! ## A reset cycle's answer, and what the registers read after it -/

/-- In a reset cycle a read is answered with 0 and without an error, aligned or not (70_reset_and_hazards.md R190). -/
theorem busReply_of_reset_read (b : Block) {c : PortCycle} (hrst : c.rstN = false) (hsel : c.busSel = true)
    (hread : c.busWrite = false) : busReply b c = some { rdata := some 0#32, err := false } := by
  simp [busReply, PortCycle.illegalAccess, hrst, hsel, hread]

theorem Block.reset_format : Block.reset.format = Config.chselPrefix.setWidth 32 <<< 12 := by
  apply BitVec.eq_of_toNat_eq
  have hchsel : Config.chselPrefix.toNat < 2 ^ 4 := Config.chselPrefix.isLt
  rw [Block.reset_format_toNat, BitVec.toNat_shiftLeft, BitVec.toNat_setWidth, Nat.shiftLeft_eq]
  omega

/-! ## What reaches the values CONFIGURE derived -/

/-- The values CONFIGURE derives (10_state.md R36): `cfg_valid`, `bps`, `channels` and `interval`. -/
def Block.derived (b : Block) : Bool × BitVec 2 × BitVec 2 × Word := (b.cfgValid, b.bps, b.channels, b.interval)

theorem Block.derived_eq_iff {b c : Block} :
    b.derived = c.derived ↔
      b.cfgValid = c.cfgValid ∧ b.bps = c.bps ∧ b.channels = c.channels ∧ b.interval = c.interval := by
  simp [Block.derived]

section
variable (b : Block)

@[simp] theorem Block.fail_derived (e : ErrCode) : (b.fail e).derived = b.derived := rfl
@[simp] theorem Block.store_derived (off : Offset) (v : Word) : (b.store off v).derived = b.derived := by
  simp [Block.derived]
@[simp] theorem Block.tick_derived : b.tick.derived = b.derived := by simp [Block.derived]

end

/-- In 30_encoding.md R72 only the rows of CONFIGURE and SOFT_RESET write a derived value. -/
theorem derived_not_mem_commandWrites {i : Instr} (hcfg : i ≠ .configure) (hsoft : i ≠ .softReset) :
    .cfgValid ∉ commandWrites i ∧ .bps ∉ commandWrites i ∧ .channels ∉ commandWrites i ∧
      .interval ∉ commandWrites i := by
  revert hcfg hsoft
  cases i <;> decide

theorem commandBlock_derived {i : Instr} (hcfg : i ≠ .configure) (hsoft : i ≠ .softReset) (b : Block) :
    (commandBlock i b).derived = b.derived := by
  obtain ⟨hvalid, hbps, hchannels, hinterval⟩ := derived_not_mem_commandWrites hcfg hsoft
  have hframe := commandBlock_changesOnly i b
  exact Block.derived_eq_iff.mpr ⟨Block.cfgValid_eq_of_get (hframe _ hvalid), BitVec.eq_of_toNat_eq (hframe _ hbps),
    BitVec.eq_of_toNat_eq (hframe _ hchannels), BitVec.eq_of_toNat_eq (hframe _ hinterval)⟩

section
variable {c : PortCycle} {s t : State}

/-- The access of a cycle reaches the derived values only by a CONFIGURE or a SOFT_RESET. -/
theorem accessEffect_derived_cases (hrst : c.rstN = true) (ha : accessEffect c s = .next t) :
    t.st.derived = s.st.derived ∨ c.runs .configure = true ∨ c.runs .softReset = true := by
  rcases accessEffect_cases c s with ⟨hsel, hlegal, hwrite, haddr, e⟩ | ⟨-, -, -, -, e⟩ | ⟨-, e⟩ <;> rw [e] at ha
  · rcases executeCommand_cases c.busWdata s with ⟨i, hdec, e⟩ | ⟨_, -, e⟩ <;> rw [e] at ha
    · rw [exec_eq_commandBlock] at ha
      cases ha
      have hruns : c.runs i = true := PortCycle.runs_of hrst hsel hlegal hwrite haddr hdec
      by_cases hcfg : i = .configure
      · exact .inr (.inl (hcfg ▸ hruns))
      · by_cases hsoft : i = .softReset
        · exact .inr (.inr (hsoft ▸ hruns))
        · exact .inl (commandBlock_derived hcfg hsoft s.st)
    · cases ha
      exact .inl (s.st.fail_derived _)
  · cases ha
    exact .inl (s.st.store_derived _ _)
  · cases ha
    exact .inl rfl

/-- The same of a step: reset reaches them too, and the tick does not. -/
theorem step_derived_cases (hs : step s = .next t) :
    t.st.derived = s.st.derived ∨
      s.nextCycle.1.rstN = false ∨ s.nextCycle.1.runs .configure = true ∨ s.nextCycle.1.runs .softReset = true := by
  rcases step_next_cases hs with ⟨hrst, -, -⟩ | ⟨hrst, -, -, q, b, hq, ha, hst⟩
  · exact .inr (.inl hrst)
  · have hb : t.st.derived = b.derived := by
      rw [hst]
      split
      · exact b.tick_derived
      · rfl
    rw [hb, ← hq]
    exact (accessEffect_derived_cases hrst ha).imp_right .inr

end

/-! ## Whole strides -/

/-- The first `n` consecutive strides of a buffer, joined, are its first `n * stride` bytes. -/
theorem flatten_strides (stride n : Nat) (bytes : List Byte) :
    ((List.range n).map fun k => (bytes.drop (k * stride)).take stride).flatten = bytes.take (n * stride) := by
  induction n with
  | zero => simp
  | succ n ih =>
    rw [List.range_succ, List.map_append, List.flatten_append, ih, Nat.succ_mul, List.take_add]
    simp

theorem wholeStrides_flatten (stride : Nat) (bytes : List Byte) :
    (wholeStrides stride bytes).flatten = bytes.take (bytes.length - bytes.length % stride) := by
  have hwhole : bytes.length / stride * stride = bytes.length - bytes.length % stride := by
    have := Nat.div_add_mod' bytes.length stride
    omega
  rw [wholeStrides, flatten_strides, hwhole]

/-- A stride of the list ends within the buffer (70_reset_and_hazards.md R200: `i + STRIDE ≤ bytes`). -/
theorem length_of_mem_wholeStrides {stride : Nat} {bytes p : List Byte} (hp : p ∈ wholeStrides stride bytes) :
    p.length = stride := by
  obtain ⟨k, hk, rfl⟩ := List.mem_map.mp hp
  have hfits : (k + 1) * stride ≤ bytes.length :=
    (Nat.mul_le_mul_right stride (List.mem_range.mp hk)).trans (Nat.div_mul_le_self _ _)
  rw [Nat.succ_mul] at hfits
  rw [List.length_take, List.length_drop]
  omega

/-! ## The statements -/

/-- Settles O49: the step is `step_of_reset`, and of the registers only `FORMAT` shows anything but 0. -/
theorem resetCycleSetsEveryComponent : Obligations.ResetCycleSetsEveryComponent := by
  refine ⟨fun s c rest hin hrst => ⟨busReply s.st c, busReply_of_reset_read s.st hrst, step_of_reset hin hrst, ?_⟩,
    rfl, rfl, rfl, Block.reset_format⟩
  intro t ht
  cases (step_of_reset hin hrst).symm.trans ht
  rfl

/-- Settles O54: `step_derived_cases` names the cycle, and it is a presented one because the idle cycle is none of the
three. -/
theorem derivedValuesWaitForConfigure : Obligations.DerivedValuesWaitForConfigure := by
  intro s t hs
  rcases step_derived_cases hs with hsame | hcycle
  · exact .inl (Block.derived_eq_iff.mp hsame)
  · have hacts : s.nextCycle.1 ≠ PortCycle.idle := by
      intro hidle
      rw [hidle] at hcycle
      revert hcycle
      decide
    obtain ⟨rest, hin⟩ := State.exists_inputs_of_ne_idle hacts
    exact .inr ⟨_, rest, hin, hcycle⟩

/-- Settles O60: the strides are consecutive from the first byte, and each lies whole within the buffer. -/
theorem partialStridesAreDropped : Obligations.PartialStridesAreDropped := fun stride bytes _ =>
  ⟨wholeStrides_flatten stride bytes, fun _ => length_of_mem_wholeStrides⟩

end Sys2Proof.Machine
end

section
/-!
PROOFS. The model's own choices of what the next cycle is: the command that `withFetchWord` places (log 9), and the idle
cycle, presented or standing for the end of the presented ones (log 4).
-/

namespace Sys2Proof.Machine

/-! ## A placed command -/

/-- A command word is one 32-bit write, of which a table row of 32 bits loses nothing (30_encoding.md R71). -/
theorem tableWord_toNat (v : Word) : tableWord 32 v.toNat = v := by
  rw [tableWord, Nat.mod_eq_of_lt v.isLt, BitVec.ofNat_toNat, BitVec.setWidth_eq]

/-- Placing a word is presenting the write of it to `CMD` in front of the other cycles. -/
theorem step_withFetchWord (s : State) (v : Word) :
    step (s.withFetchWord 32 v.toNat) = s.present (PortCycle.command v) := by
  rw [State.withFetchWord, tableWord_toNat, State.present]

/-! ## An idle cycle -/

theorem clockCycle_idle (s : State) : clockCycle PortCycle.idle s = .next { s with reply := none } := by
  rcases clockCycle_cases PortCycle.idle s with ⟨hreset, -⟩ | ⟨hillegal, -⟩ | ⟨-, -, b, ha, e⟩
  · cases hreset
  · cases hillegal
  · cases (accessEffect_of_read _ rfl).symm.trans ha
    exact e

theorem State.nextCycle_nil {s : State} (hin : s.inputs = []) : s.nextCycle = (PortCycle.idle, []) := by
  rw [State.nextCycle, hin]

/-- It is one step whether the idle cycle was presented or stands for the end of the list. -/
theorem step_of_nextCycle_idle {s : State} {rest : List PortCycle} (hnext : s.nextCycle = (PortCycle.idle, rest)) :
    step s = .next { s with inputs := rest, reply := none } := by
  rw [step_eq_clockCycle, hnext, clockCycle_idle]

/-! ## The statements -/

/-- Settles O7: the placed write is a presented one, which runs its command by `State.present_command`. -/
theorem placedCommandRunsNext : Obligations.PlacedCommandRunsNext := fun s i =>
  (step_withFetchWord s (encode i)).trans (s.present_command i)

/-- Settles O53: with no cycle presented the next one is idle too, and the list that is left is the empty one again. -/
theorem idleCyclesChangeNothing : Obligations.IdleCyclesChangeNothing := by
  refine fun s => ⟨fun hnone => ?noCycle, fun rest hidle => ?presented⟩
  case noCycle => rw [step_of_nextCycle_idle (State.nextCycle_nil hnone), hnone]
  case presented => exact step_of_nextCycle_idle (State.nextCycle_cons hidle)

end Sys2Proof.Machine
end
